-- ==== Sys2Proof/Word.lean ====
section
/-! DEFINITION. Word.lean: the word types of the block.
No datum of the block is wider than one byte (20_memory.md R50); the event word is 16 bits (30_encoding.md R70). -/

namespace Sys2Proof

/-- One byte: a PulseCounter (R7), a port (R6, `PORT_W` = 8), a segment or select byte (R83, R84). -/
abbrev Byte := BitVec 8

/-- The event word `EV[15:0]` (R70). -/
abbrev EventWord := BitVec 16

/-- A display position, 0 to 3 (R9, `N_DIGITS` = 4): the value of `ADI` and of the operand `pos`. -/
abbrev Position := Fin 4

end Sys2Proof
end

