-- ==== Sys2Proof/Config.lean ====
section
/-! DEFINITION. Config.lean: the parameters fixed when the block is built (00_scope.md R6).
The spec leaves most of them OPEN. They are the fields of `Config`, and State carries the one a machine was built
with, so that a statement about every state holds for every build (notes/assumptions/1.md). The build that
`State.reset` belongs to is `Config.build`, whose OPEN fields are opaque: nothing can be proved of their values. -/

namespace Sys2Proof

/-- The build-time parameters of R6. The three proof fields are R6's constraints (and V3 of
93_implementation_defined.md): an illegal configuration cannot be written down. -/
structure Config where
  /-- `BUTTON_MASK`: bit i is 1 when input line i is a monitored button (R8). -/
  buttonMask : Byte
  /-- `DEBOUNCE_WINDOW`: reload value of the debounce PulseCounter, in ticks. -/
  debounceWindow : Byte
  /-- `REFRESH_INTERVAL`: reload value of the refresh PulseCounter, in ticks. -/
  refreshInterval : Byte
  /-- `NUMERAL_TABLE[0..9]`: the segment bytes of the numerals 0 to 9 (R12, R36). -/
  numeralTable : Vector Byte 10
  /-- `SELECT_TABLE[0..3]`: the select bytes of the positions 0 to 3 (R12, R37). -/
  selectTable : Vector Byte 4
  /-- `BLANK`: the blank sentinel, 0xFF in the reference encoding (R10). -/
  blank : Byte := 0xFF
  /-- `IND_INIT`: reset value of the indicator bits outside `BUTTON_MASK` (default 0). -/
  indInit : Byte := 0x00
  /-- At least one bit of `BUTTON_MASK` is set (R6). -/
  buttonMask_pos : 0 < buttonMask.toNat
  /-- `DEBOUNCE_WINDOW` is in 1 .. 255 (R6, R104). -/
  debounceWindow_pos : 0 < debounceWindow.toNat
  /-- `REFRESH_INTERVAL` is in 1 .. 255 (R6, R104). -/
  refreshInterval_pos : 0 < refreshInterval.toNat
  deriving DecidableEq, Repr

/-- `N_BUTTONS`: the number of monitored buttons, the number of 1 bits of `BUTTON_MASK` (R8). -/
def Config.nButtons (c : Config) : Nat :=
  ((List.range 8).filter fun i => c.buttonMask.getLsbD i).length

/-- `TICK_PERIOD` in milliseconds: nominal, no rule reads it (R11). -/
def Config.tickPeriodMs : Nat := 1

/-- `HB_PERIOD` in milliseconds: nominal, no rule reads it (R11). -/
def Config.heartbeatPeriodMs : Nat := 1000

/-- A byte in 1 .. 255, numbered from 0. -/
def Config.nonZeroByte (k : Fin 255) : Byte := BitVec.ofNat 8 (k.val + 1)

theorem Config.nonZeroByte_pos (k : Fin 255) : 0 < (Config.nonZeroByte k).toNat := by
  have := k.isLt
  simp only [Config.nonZeroByte, BitVec.toNat_ofNat]
  omega

/-- OPEN (D13): `BUTTON_MASK` of this build is `nonZeroByte` of it. -/
opaque Config.openButtonMask : Fin 255
/-- OPEN (D14): `DEBOUNCE_WINDOW` of this build is `nonZeroByte` of it. -/
opaque Config.openDebounceWindow : Fin 255
/-- OPEN (D14): `REFRESH_INTERVAL` of this build is `nonZeroByte` of it. -/
opaque Config.openRefreshInterval : Fin 255
/-- OPEN (D12): `NUMERAL_TABLE` of this build. -/
opaque Config.openNumeralTable : Vector Byte 10
/-- OPEN (D12): `SELECT_TABLE` of this build. -/
opaque Config.openSelectTable : Vector Byte 4
/-- OPEN (D7): `IND_INIT` of this build. -/
opaque Config.openIndInit : Byte

/-- The build `State.reset` belongs to: every OPEN parameter uninterpreted, `BLANK` = 0xFF as R10 takes it. -/
def Config.build : Config where
  buttonMask := nonZeroByte openButtonMask
  debounceWindow := nonZeroByte openDebounceWindow
  refreshInterval := nonZeroByte openRefreshInterval
  numeralTable := openNumeralTable
  selectTable := openSelectTable
  indInit := openIndInit
  buttonMask_pos := nonZeroByte_pos _
  debounceWindow_pos := nonZeroByte_pos _
  refreshInterval_pos := nonZeroByte_pos _

end Sys2Proof
end

