-- ==== Sys2Proof/Syntax.lean ====
section
/-! DEFINITION. Syntax.lean: the six operations of the block, one constructor per row of the opcode table
(30_encoding.md R72). No operation takes a register number (10_state.md R25). -/

namespace Sys2Proof

/-- The operations of R72. -/
inductive Instr where
  /-- NOP (R155): a slot in which nothing is requested. -/
  | nop
  /-- TICK (R100): the Tick Source's event. -/
  | tick
  /-- HBTICK (R110): the Heartbeat Timer's event. -/
  | hbtick
  /-- POLLDM (R130): the Display Multiplexer's poll. -/
  | polldm
  /-- POLLDB (R115): the Debounce Engine's poll. -/
  | polldb
  /-- `SETDIG pos, n` (R140): the position is an unsigned 2-bit operand, the numeral a signed one (R74).
  The numeral is an integer here; WellFormed says which integers an event word can carry. -/
  | setdig (pos : Position) (n : Int)
  deriving DecidableEq, Repr

/-- The mnemonic of R72. -/
def Instr.mnemonic : Instr → String
  | .nop => "NOP"
  | .tick => "TICK"
  | .hbtick => "HBTICK"
  | .polldm => "POLLDM"
  | .polldb => "POLLDB"
  | .setdig _ _ => "SETDIG"

end Sys2Proof
end

