-- ==== Sys2Proof/WellFormed.lean ====
section
/-! DEFINITION. WellFormed.lean: which operations an event word can carry. -/

namespace Sys2Proof

/-- The numeral fits `NUM_W` = 8 bits in two's complement: -128 .. 127 (R6, R71, R74). -/
def numeralFits (n : Int) : Bool := decide (-128 ≤ n) && decide (n ≤ 127)

/-- An operation is well formed when its operands fit their fields of the event word (R71). A position always
does: its type has four values. -/
def Instr.wellFormed : Instr → Bool
  | .nop => true
  | .tick => true
  | .hbtick => true
  | .polldm => true
  | .polldb => true
  | .setdig _ n => numeralFits n

/-- `wellFormed` as a proposition. -/
abbrev Instr.WellFormed (i : Instr) : Prop := i.wellFormed = true

end Sys2Proof
end

