-- ==== Sys2Proof/Decode.lean ====
section
/-! DEFINITION. Decode.lean: the event word's decoder (30_encoding.md R71 to R75), and after it the encoder,
written from the same table. Reserved words decode to no operation; the error names why (R75). -/

namespace Sys2Proof

/-- Why an event word is reserved (R75): the three clauses of the rule. -/
inductive DecodeError where
  /-- `op` in 0x6 .. 0xF. -/
  | reservedOp (op : BitVec 4)
  /-- `op` in 0x0 .. 0x4 and `EV[11:0]` not 0. -/
  | nonZeroOperand (op : BitVec 4) (low : BitVec 12)
  /-- `op` = 0x5 and `rsv` not 0. -/
  | nonZeroRsv (rsv : BitVec 2)
  deriving DecidableEq, Repr

/-- `op` = `EV[15:12]` (R71). -/
def fieldOp (w : EventWord) : BitVec 4 := w.extractLsb' 12 4

/-- `rsv` = `EV[11:10]` (R71). -/
def fieldRsv (w : EventWord) : BitVec 2 := w.extractLsb' 10 2

/-- `pos` = `EV[9:8]` (R71). -/
def fieldPos (w : EventWord) : BitVec 2 := w.extractLsb' 8 2

/-- `val` = `EV[7:0]` (R71). -/
def fieldVal (w : EventWord) : BitVec 8 := w.extractLsb' 0 8

/-- `EV[11:0]`, which must be 0 in format Z (R72). -/
def fieldLow (w : EventWord) : BitVec 12 := w.extractLsb' 0 12

/-- The operand `pos` is the unsigned integer of its field (R74). -/
def operandPos (w : EventWord) : Position := (fieldPos w).toFin

/-- The operand n is the field `val` read in two's complement, `sext_8(EV[7:0])` (R74). -/
def operandNumeral (w : EventWord) : Int := (fieldVal w).toInt

/-- A format Z word is the operation `i` when its low field is 0, and reserved otherwise (R72, R75). -/
def decodeZ (i : Instr) (w : EventWord) : Except DecodeError Instr :=
  if fieldLow w = 0 then .ok i else .error (.nonZeroOperand (fieldOp w) (fieldLow w))

/-- A format D word is SETDIG when `rsv` is 0, and reserved otherwise (R72, R75). -/
def decodeD (w : EventWord) : Except DecodeError Instr :=
  if fieldRsv w = 0 then .ok (.setdig (operandPos w) (operandNumeral w)) else .error (.nonZeroRsv (fieldRsv w))

/-- The decoder of R73, total on every word. -/
def decode (w : EventWord) : Except DecodeError Instr :=
  match (fieldOp w).toNat with
  | 0 => decodeZ .nop w
  | 1 => decodeZ .tick w
  | 2 => decodeZ .hbtick w
  | 3 => decodeZ .polldm w
  | 4 => decodeZ .polldb w
  | 5 => decodeD w
  | _ => .error (.reservedOp (fieldOp w))

/-- Format D: `0x5000 | (pos << 8) | val` (R140). -/
def encodeD (pos : Position) (n : Int) : EventWord :=
  0x5000#16 ||| (BitVec.ofNat 16 pos.val <<< 8) ||| (BitVec.ofInt 8 n).setWidth 16

/-- The event word of an operation (R72). -/
def encode : Instr → EventWord
  | .nop => 0x0000#16
  | .tick => 0x1000#16
  | .hbtick => 0x2000#16
  | .polldm => 0x3000#16
  | .polldb => 0x4000#16
  | .setdig pos n => encodeD pos n

/-- One row of the opcode map (R72). -/
structure OpRow where
  mnemonic : String
  pattern : EventWord
  mask : EventWord
  deriving DecidableEq, Repr

/-- The opcode map of R72, row by row. -/
def opTable : List OpRow :=
  [⟨"NOP", 0x0000, 0xFFFF⟩, ⟨"TICK", 0x1000, 0xFFFF⟩, ⟨"HBTICK", 0x2000, 0xFFFF⟩,
   ⟨"POLLDM", 0x3000, 0xFFFF⟩, ⟨"POLLDB", 0x4000, 0xFFFF⟩, ⟨"SETDIG", 0x5000, 0xFC00⟩]

/-- A word belongs to a row when it equals the row's pattern under the row's mask (R72, R73). -/
def OpRow.hits (r : OpRow) (w : EventWord) : Bool := (w &&& r.mask) == r.pattern

/-- The event word a table word stands for: every bit above `nbits` is 0. -/
def tableWord (nbits w : Nat) : EventWord := BitVec.ofNat 16 (w % 2 ^ nbits)

/-- The operation the decoder reads from a word numbered as the opcode table numbers it. -/
def decodeTableWord (nbits w : Nat) : Option Instr :=
  match decode (tableWord nbits w) with
  | .ok i => some i
  | .error _ => none

end Sys2Proof
end

