-- ==== Sys2Proof/Machine/State.lean ====
section
/-! DEFINITION. Machine/State.lean: the state of the block (10_state.md R20), the pins the outside drives
(45_main_loop_and_system.md R162, 92_eei_decisions.md D1), and the state after reset (R43). -/

namespace Sys2Proof.Machine

/-- The three lines of the display serial interface (R17, R30, R31, R32). -/
inductive Line where
  /-- `SCK`, the serial clock, idle low. -/
  | sck
  /-- `CS_N`, chip-select, asserted low. -/
  | csN
  /-- `SDO`, the data output. -/
  | sdo
  deriving DecidableEq, Repr

/-- One record of `DTRACE`: a write of a level to a line (R17, R18). `true` is level 1. -/
structure PinRecord where
  line : Line
  level : Bool
  deriving DecidableEq, Repr

/-- What the outside presents on the input pins at one step (D1): reset, the strobe, the event word, and the
level of the input port. -/
structure PortInput where
  /-- `RST` (R185). -/
  rst : Bool
  /-- `EV_VALID` (R70). -/
  evValid : Bool
  /-- `EV[15:0]` (R70). -/
  ev : EventWord
  /-- `BTN_IN[7:0]` (R33): what `Sample(BTN_IN)` returns at this step. -/
  btn : Byte
  deriving DecidableEq, Repr

/-- The whole state. The first eleven fields are R20's table (`DTRACE`, its observation, included: R18, R41). The
last three are the model's own: what the outside presents, and the build's parameters (notes/assumptions/1.md,
2.md, 3.md). -/
@[ext]
structure State where
  /-- `DBCNT`, the debounce PulseCounter (R21). -/
  dbcnt : Byte
  /-- `RFCNT`, the refresh PulseCounter (R22). -/
  rfcnt : Byte
  /-- `DBSTATE`, the committed button pattern (R23). -/
  dbstate : Byte
  /-- `ADI`, the active digit index (R24). -/
  adi : Position
  /-- `HB`, the heartbeat bit (R28). -/
  hb : Bool
  /-- `IND`, the indicator port (R29). -/
  ind : Byte
  /-- `SCK` (R30). -/
  sck : Bool
  /-- `CS_N` (R31). -/
  csN : Bool
  /-- `SDO` (R32). -/
  sdo : Bool
  /-- `DIGBUF[0..3]`, the digit buffer (R35). -/
  digbuf : Vector Byte 4
  /-- `DTRACE`, the ordered history of pin writes since reset (R18, R41); no operation reads it. -/
  dtrace : List PinRecord
  /-- Model's own: the level now presented on `BTN_IN` (R33); only POLLDB samples it. -/
  btnIn : Byte
  /-- Model's own: what the outside will present, step by step, the next first (R13, R160). -/
  inputs : List PortInput
  /-- Model's own: the parameters the block was built with (R6); no step changes them. -/
  cfg : Config
  deriving DecidableEq, Repr

/-- The reasons the machine stops with a fault: there are none. The block raises no exception (60_exceptions.md
R165), every bad condition is impossible by construction (R167), and no constructor is needed (U12). Safe. -/
inductive Fault where
  deriving DecidableEq, Repr

/-- The reasons the model has no meaning for an operation. -/
inductive Refusal where
  /-- Kept for an arm of `exec` that would have no meaning; every arm has one, so nothing raises it. Safe. -/
  | notModelled (mnemonic : String)
  deriving DecidableEq, Repr

/-- The state right after reset of a block built with `c` (R43, R185). `ADI` = 0 is the source's; `SCK` = 0 and
`CS_N` = 1 follow from the wire contract; the rest are the spec's own decisions D6 to D9 (notes/assumptions/5.md).
The outside presents nothing yet, and `BTN_IN` is 0x00 (R79). -/
def State.resetOf (c : Config) : State where
  dbcnt := 0
  rfcnt := 0
  dbstate := 0
  adi := 0
  hb := false
  ind := c.indInit &&& ~~~c.buttonMask
  sck := false
  csN := true
  sdo := false
  digbuf := Vector.replicate 4 c.blank
  dtrace := []
  btnIn := 0
  inputs := []
  cfg := c

/-- The machine right after reset. -/
def State.reset : State := State.resetOf Config.build

end Sys2Proof.Machine
end

