-- ==== Sys2Proof/Machine/Flags.lean ====
section
/-! DEFINITION. Machine/Flags.lean: the conditions. The block stores no flag (10_state.md R27): these are computed
when they are used and kept nowhere, and no operation sets a flag. -/

namespace Sys2Proof.Machine

/-- `Expired(c)`: the zero test on the whole counter (40_pulse_counter.md R103). -/
def expired (c : Byte) : Bool := c == 0

/-- The comparator: all bits of the two patterns take part (42_debounce_fsm.md R118). -/
def differs (snap committed : Byte) : Bool := snap != committed

/-- The range test 0 <= n <= 9 of SETDIG, as an index of NUMERAL_TABLE when it holds (R140, R163 f). -/
def numeralIndex (n : Int) : Option (Fin 10) :=
  if h : 0 ≤ n ∧ n ≤ 9 then some ⟨n.toNat, by omega⟩ else none

end Sys2Proof.Machine
end

