-- ==== Sys2Proof/Machine/Operands.lean ====
section
/-! DEFINITION. Machine/Operands.lean: every operand the operations read. The indexed accesses are those of
20_memory.md R66: one whole byte, the index unscaled, no extension, no side effect (R56). -/

namespace Sys2Proof.Machine

/-- `DIGBUF[p]` (R66). -/
def digitRead (s : State) (p : Position) : Byte := s.digbuf.get p

/-- `SELECT_TABLE[p]` (R37, R66). -/
def selectRead (s : State) (p : Position) : Byte := s.cfg.selectTable.get p

/-- `Encode(n)`, for any integer n: NUMERAL_TABLE[n] when 0 <= n <= 9, and BLANK otherwise (R141). -/
def encodeNumeral (c : Config) (n : Int) : Byte :=
  match numeralIndex n with
  | some k => c.numeralTable.get k
  | none => c.blank

/-- `Sample(BTN_IN)`: the level the outside presents at this step, unfiltered (R17, R117, D19). -/
def samplePort (s : State) : Byte := s.btnIn

/-- The ButtonSnapshot: the sample masked to the monitored bits (R117). -/
def snapshot (s : State) : Byte := samplePort s &&& s.cfg.buttonMask

end Sys2Proof.Machine
end

