-- ==== Sys2Proof/Machine/Ops.lean ====
section
/-! DEFINITION. Machine/Ops.lean: the shared operations over the state: pin writes and the serial shifter, the
digit buffer's write, the counters' decrement and reload, the output stage, reset, and what a step takes from the
input pins.

TAKING AN EXCEPTION has no operation here because the block has none: it raises no exception and takes no trap
(60_exceptions.md R165, R172), it saves nothing, switches no mode and vectors nowhere, and there is no return (R173).
Its two interrupt events are the operations TICK and HBTICK themselves (R169). -/

namespace Sys2Proof.Machine

/-- `PinWrite(P, b)`: the line takes the level and the write is recorded, also when the level is the old one
(R17). -/
def pinWrite (l : Line) (b : Bool) (s : State) : State :=
  match l with
  | .sck => { s with sck := b, dtrace := s.dtrace ++ [⟨.sck, b⟩] }
  | .csN => { s with csN := b, dtrace := s.dtrace ++ [⟨.csN, b⟩] }
  | .sdo => { s with sdo := b, dtrace := s.dtrace ++ [⟨.sdo, b⟩] }

/-- One bit cell: data set, then clock high, then clock low (R81). -/
def bitCell (b : Bool) (s : State) : State :=
  pinWrite .sck false (pinWrite .sck true (pinWrite .sdo b s))

/-- The bit cells of bits k-1 down to 0 of a byte. -/
def shiftBits : Nat → Byte → State → State
  | 0, _, s => s
  | k + 1, v, s => shiftBits k v (bitCell (v.getLsbD k) s)

/-- `ShiftByte(b)`: eight bit cells, most significant bit first (R133). -/
def shiftByte (v : Byte) (s : State) : State := shiftBits 8 v s

/-- One frame: chip-select low, the segment byte, the select byte, chip-select high (R132, R80). -/
def sendFrame (seg sel : Byte) (s : State) : State :=
  pinWrite .csN true (shiftByte sel (shiftByte seg (pinWrite .csN false s)))

/-- `ADI <- (ADI + 1) mod 4` (R135): addition on four values wraps from 3 to 0. -/
def advanceDigit (s : State) : State := { s with adi := s.adi + 1 }

/-- `DIGBUF[p] <- v` (R66). -/
def digitWrite (p : Position) (v : Byte) (s : State) : State :=
  { s with digbuf := s.digbuf.set p.val v p.isLt }

/-- `SatDec(c)`: c - 1 when c is above 0, and 0 when c is 0 (R101). -/
def satDec (c : Byte) : Byte := if expired c then 0 else c - 1

/-- `RFCNT <- REFRESH_INTERVAL` (R104, R136). -/
def reloadRefresh (s : State) : State := { s with rfcnt := s.cfg.refreshInterval }

/-- `DBCNT <- DEBOUNCE_WINDOW` (R104, R119). -/
def reloadDebounce (s : State) : State := { s with dbcnt := s.cfg.debounceWindow }

/-- `DBSTATE <- snap` (R119). -/
def commitPattern (snap : Byte) (s : State) : State := { s with dbstate := snap }

/-- `OutputStage(p)`: the bits of IND inside BUTTON_MASK become those of the pattern, every other bit stays
(R150). -/
def outputStage (p : Byte) (s : State) : State :=
  { s with ind := (s.ind &&& ~~~s.cfg.buttonMask) ||| (p &&& s.cfg.buttonMask) }

/-- Reset: every element at its reset value and DTRACE empty (R185). What the outside presents is not the block's
to reset, and the build's parameters are constant (R6). -/
def resetBlock (s : State) : State :=
  { State.resetOf s.cfg with btnIn := s.btnIn, inputs := s.inputs }

/-- The pins of one step are taken: BTN_IN has the level presented, and the rest is still to come. -/
def latchPort (p : PortInput) (rest : List PortInput) (s : State) : State :=
  { s with btnIn := p.btn, inputs := rest }

/-- A reserved event word is ignored: no state changes, no pin write (R75, D3; notes/assumptions/4.md). -/
def ignoreReserved (s : State) : State := s

/-- The outside presents the event word `w` next, with the strobe, without reset, BTN_IN as it is. -/
def presentWord (w : EventWord) (s : State) : State :=
  { s with inputs := ⟨false, true, w, s.btnIn⟩ :: s.inputs }

end Sys2Proof.Machine
end

