-- ==== Sys2Proof/Machine/Debounce.lean ====
section
/-! DEFINITION. Machine/Debounce.lean: the meaning of POLLDB (42_debounce_fsm.md). 90_conflicts.md C1 settles when a
change is committed: at once in the poll that sees it, with the window after the commit. -/

namespace Sys2Proof.Machine

/-- The commit path: the pattern, the reload and the indicators in one step (R119). -/
def commitSnapshot (snap : Byte) (s : State) : State :=
  outputStage snap (reloadDebounce (commitPattern snap s))

/-- POLLDB: the guard (R116), the sample (R117), the comparator (R118), the commit (R119) or nothing (R120). -/
def execPolldb (s : State) : Host.Outcome State Fault Refusal :=
  .next <|
    if expired s.dbcnt && differs (snapshot s) s.dbstate then commitSnapshot (snapshot s) s else s

end Sys2Proof.Machine
end

