-- ==== Sys2Proof/Machine/Display.lean ====
section
/-! DEFINITION. Machine/Display.lean: the meanings of POLLDM and SETDIG (43_display_multiplexer.md). -/

namespace Sys2Proof.Machine

/-- One refresh: the frame of position ADI, then the rotator, then the reload (R132, R135, R136). Both bytes use ADI
from before it advances (R130 corner case d). -/
def refreshDigit (s : State) : State :=
  reloadRefresh (advanceDigit (sendFrame (digitRead s s.adi) (selectRead s s.adi) s))

/-- POLLDM: nothing while RFCNT is not zero (R131), else one refresh (R130). -/
def execPolldm (s : State) : Host.Outcome State Fault Refusal :=
  .next (if expired s.rfcnt then refreshDigit s else s)

/-- SETDIG stores Encode(n) into DIGBUF[pos] (R140). -/
def execSetdig (pos : Position) (n : Int) (s : State) : Host.Outcome State Fault Refusal :=
  .next (digitWrite pos (encodeNumeral s.cfg n) s)

end Sys2Proof.Machine
end

