-- ==== Sys2Proof/Machine/Heartbeat.lean ====
section
/-! DEFINITION. Machine/Heartbeat.lean: the meaning of HBTICK (41_heartbeat.md). -/

namespace Sys2Proof.Machine

/-- HBTICK inverts HB and does nothing else (R110). -/
def execHbtick (s : State) : Host.Outcome State Fault Refusal :=
  .next { s with hb := !s.hb }

end Sys2Proof.Machine
end

