-- ==== Sys2Proof/Machine/MainLoop.lean ====
section
/-! DEFINITION. Machine/MainLoop.lean: the meaning of NOP (45_main_loop_and_system.md). -/

namespace Sys2Proof.Machine

/-- NOP changes nothing: no register, no pin, no record (R155). -/
def execNop (s : State) : Host.Outcome State Fault Refusal := .next s

end Sys2Proof.Machine
end

