-- ==== Sys2Proof/Machine/PulseCounter.lean ====
section
/-! DEFINITION. Machine/PulseCounter.lean: the meaning of TICK (40_pulse_counter.md). -/

namespace Sys2Proof.Machine

/-- TICK decrements each PulseCounter that is not zero by one, and leaves a zero one at zero (R100). -/
def execTick (s : State) : Host.Outcome State Fault Refusal :=
  .next { s with dbcnt := satDec s.dbcnt, rfcnt := satDec s.rfcnt }

end Sys2Proof.Machine
end

