-- ==== Sys2Proof/Machine/Dispatch.lean ====
section
/-! DEFINITION. Machine/Dispatch.lean: one arm per operation. -/

namespace Sys2Proof.Machine

def exec (i : Instr) (s : State) : Host.Outcome State Fault Refusal :=
  match i with
  | .nop => Sys2Proof.Machine.execNop s
  | .tick => Sys2Proof.Machine.execTick s
  | .hbtick => Sys2Proof.Machine.execHbtick s
  | .polldm => Sys2Proof.Machine.execPolldm s
  | .polldb => Sys2Proof.Machine.execPolldb s
  | .setdig pos n => Sys2Proof.Machine.execSetdig pos n s

end Sys2Proof.Machine
end

