-- ==== Sys2Proof/Machine/EventPort.lean ====
section
/-! DEFINITION. Machine/EventPort.lean: what one presentation of the input pins does (30_encoding.md R70, R75;
70_reset_and_hazards.md R185). -/

namespace Sys2Proof.Machine

/-- An event word presented with EV_VALID = 1 is decoded and performed as one atomic step (R70, R14); a reserved
word is ignored (R75). -/
def performWord (w : EventWord) (s : State) : Host.Outcome State Fault Refusal :=
  match decode w with
  | .ok i => exec i s
  | .error _ => .next (ignoreReserved s)

/-- RST has priority over any event word presented with it, which is discarded (R185); without RST and without
EV_VALID nothing is performed (R70). -/
def performPort (p : PortInput) (s : State) : Host.Outcome State Fault Refusal :=
  if p.rst then .next (resetBlock s)
  else if p.evValid then performWord p.ev s
  else .next s

end Sys2Proof.Machine
end

