-- ==== Sys2Proof/Machine/Step.lean ====
section
/-! DEFINITION. Machine/Step.lean: one step. The block has no program counter and fetches nothing (10_state.md R26):
its next operation is the event word the outside presents next. -/

namespace Sys2Proof.Machine

/-- One step takes the next presentation of the input pins and performs it (R14). When the outside presents nothing
more, nothing happens (notes/assumptions/2.md). -/
def step (s : State) : Host.Outcome State Fault Refusal :=
  match s.inputs with
  | [] => .next s
  | p :: rest => performPort p (latchPort p rest s)

/-- The word is presented next on the event port, before all the outside was going to present. -/
def State.withFetchWord (s : State) (nbits w : Nat) : State := presentWord (tableWord nbits w) s

end Sys2Proof.Machine
end

