-- ==== Sys2Proof/Machine/Wire.lean ====
section
/-! DEFINITION. Machine/Wire.lean: the display wire contract as data (30_encoding.md R80, R81, R82). The frame is
written here as the rule gives it, apart from the shifter that sends it (Ops.lean), so that the two can be compared;
the receiver's view is R82's walk over the history of pin writes. No operation uses this file. -/

namespace Sys2Proof.Machine

/-- The bits of a byte in transmission order, bit 7 first (R51). -/
def bitsMsbFirst (v : Byte) : List Bool := [7, 6, 5, 4, 3, 2, 1, 0].map fun i => v.getLsbD i

/-- One bit cell: SDO takes the bit, SCK goes high, SCK goes low (R81). -/
def cellRecords (b : Bool) : List PinRecord := [⟨.sdo, b⟩, ⟨.sck, true⟩, ⟨.sck, false⟩]

/-- The 16 bits of a frame in transmission order: segment byte, then select byte (R80). -/
def payloadBits (seg sel : Byte) : List Bool := bitsMsbFirst seg ++ bitsMsbFirst sel

/-- The payload as a 16-bit value, `(segment << 8) | select` (R80). -/
def payloadWord (seg sel : Byte) : BitVec 16 := seg ++ sel

/-- The 50 pin writes of one frame (R80, R81). -/
def frameRecords (seg sel : Byte) : List PinRecord :=
  ⟨.csN, false⟩ :: (payloadBits seg sel).flatMap cellRecords ++ [⟨.csN, true⟩]

/-- The receiver's view: the levels of the three lines, the list being collected, and the lists emitted (R82). -/
structure Receiver where
  sck : Bool
  csN : Bool
  sdo : Bool
  bits : List Bool
  emitted : List (List Bool)
  deriving DecidableEq, Repr

/-- The walk starts from the reset levels (R82). -/
def Receiver.start : Receiver := ⟨false, true, false, [], []⟩

/-- One record of the walk (R82): CS_N from 1 to 0 starts a list, SCK from 0 to 1 while CS_N is 0 appends the level
of SDO, CS_N from 0 to 1 emits the list. -/
def Receiver.take (r : Receiver) (p : PinRecord) : Receiver :=
  match p.line with
  | .csN =>
    if r.csN && !p.level then { r with csN := p.level, bits := [] }
    else if !r.csN && p.level then { r with csN := p.level, emitted := r.emitted ++ [r.bits], bits := [] }
    else { r with csN := p.level }
  | .sck =>
    if !r.sck && p.level && !r.csN then { r with sck := p.level, bits := r.bits ++ [r.sdo] }
    else { r with sck := p.level }
  | .sdo => { r with sdo := p.level }

/-- The walk over a history. -/
def receive (d : List PinRecord) : Receiver := d.foldl Receiver.take Receiver.start

/-- `Frames(DTRACE)` (R82). -/
def frames (d : List PinRecord) : List (List Bool) := (receive d).emitted

/-- The rising edges of SCK in a history: writes of 1 while the line is at 0, `was` being its level before (R81). -/
def sckRisingEdges (was : Bool) : List PinRecord → Nat
  | [] => 0
  | p :: ps =>
    match p.line with
    | .sck => (if !was && p.level then 1 else 0) + sckRisingEdges p.level ps
    | .csN | .sdo => sckRisingEdges was ps

/-- The level of a line at the end of a history: its last write, or its reset level (R18). -/
def lineLevel (l : Line) (d : List PinRecord) : Bool :=
  match l with
  | .sck => (receive d).sck
  | .csN => (receive d).csN
  | .sdo => (receive d).sdo

/-- What an observer at the output pins sees now (R162): the levels of HB, IND, SCK, CS_N and SDO. -/
structure Pins where
  hb : Bool
  ind : Byte
  sck : Bool
  csN : Bool
  sdo : Bool
  deriving DecidableEq, Repr

/-- The output pins of a state (R162, R177). -/
def State.pins (s : State) : Pins := ⟨s.hb, s.ind, s.sck, s.csN, s.sdo⟩

end Sys2Proof.Machine
end

