-- ==== Sys2Proof/Machine/Preempt.lean ====
section
/-! DEFINITION. Machine/Preempt.lean: a poll cut into the single writes it performs, with interrupt handlers between
any two of them (70_reset_and_hazards.md R196, 00_scope.md R14). The machine does not use this file: it is the finer
system that R196 compares the atomic steps with. -/

namespace Sys2Proof.Machine

/-- The state an outcome goes on from: the next state, or the one it was asked in. -/
def nextOr (s : State) (o : Host.Outcome State Fault Refusal) : State :=
  match o with
  | .next t => t
  | .fault _ => s
  | .refused _ => s

/-- The state after an operation. -/
def perform (i : Instr) (s : State) : State := nextOr s (exec i s)

/-- The operations of interrupt context (R175). -/
inductive Handler where
  | tick
  | hbtick
  deriving DecidableEq, Repr

/-- The operation a handler is (R169). -/
def Handler.instr : Handler → Instr
  | .tick => .tick
  | .hbtick => .hbtick

/-- Handlers run one after the other: they do not nest (R173). -/
def runHandlers (hs : List Handler) (s : State) : State := hs.foldl (fun t h => perform h.instr t) s

/-- One write inside a poll. -/
inductive Micro where
  | pin (l : Line) (b : Bool)
  | advance
  | reloadRefresh
  | commit (snap : Byte)
  | reloadDebounce
  | output (snap : Byte)
  deriving DecidableEq, Repr

/-- The write performed. -/
def Micro.run (m : Micro) (s : State) : State :=
  match m with
  | .pin l b => pinWrite l b s
  | .advance => advanceDigit s
  | .reloadRefresh => Sys2Proof.Machine.reloadRefresh s
  | .commit snap => commitPattern snap s
  | .reloadDebounce => Sys2Proof.Machine.reloadDebounce s
  | .output snap => outputStage snap s

/-- The writes a POLLDM that passes or fails its guard in `s` goes on to perform, in order (R130, R134). -/
def polldmMicros (s : State) : List Micro :=
  if expired s.rfcnt then
    (frameRecords (digitRead s s.adi) (selectRead s s.adi)).map (fun r => Micro.pin r.line r.level)
      ++ [.advance, .reloadRefresh]
  else []

/-- The writes a POLLDB goes on to perform after its guard, its sample and its comparison in `s`, in the order
listed (R119). -/
def polldbMicros (s : State) : List Micro :=
  if expired s.dbcnt && differs (snapshot s) s.dbstate then
    [.commit (snapshot s), .reloadDebounce, .output (snapshot s)]
  else []

/-- What happens at one place of a preempted poll: one of its writes, or a handler. -/
inductive Slot where
  | micro (m : Micro)
  | handler (h : Handler)
  deriving DecidableEq, Repr

/-- One place performed. -/
def Slot.run (x : Slot) (s : State) : State :=
  match x with
  | .micro m => m.run s
  | .handler h => perform h.instr s

/-- A preempted poll performed. -/
def runSlots (xs : List Slot) (s : State) : State := xs.foldl (fun t x => x.run t) s

/-- The poll's own writes, in order. -/
def microsOf (xs : List Slot) : List Micro :=
  xs.filterMap fun x => match x with
    | .micro m => some m
    | .handler _ => none

/-- The handlers taken inside it, in order. -/
def handlersOf (xs : List Slot) : List Handler :=
  xs.filterMap fun x => match x with
    | .micro _ => none
    | .handler h => some h

end Sys2Proof.Machine
end

