-- ==== Sys2Proof/Machine/Script.lean ====
section
/-! DEFINITION. Machine/Script.lean: the script form of 30_encoding.md R77 to R79: pseudo-operations, directives and
their text. A script is a way to write what the outside presents; the machine itself does not use this file. -/

namespace Sys2Proof.Machine

/-- One line of a script: an operation, a pseudo-operation (R78) or a directive (R79). -/
inductive ScriptLine where
  | op (i : Instr)
  /-- `LOOP`: one iteration of the main loop (R78, R156). -/
  | loop
  /-- `TICKS n`. -/
  | ticks (n : Nat)
  /-- `BLANKDIG pos`. -/
  | blankdig (pos : Position)
  /-- `RUN n`. -/
  | run (n : Nat)
  /-- `IN v`: BTN_IN is v from now on. -/
  | input (v : Byte)
  /-- `RESET`: reset is asserted. -/
  | reset
  deriving DecidableEq, Repr

/-- POLLDM before POLLDB, in every iteration (R157). -/
def loopInstrs : List Instr := [.polldm, .polldb]

/-- The operations a line stands for (R78); a directive stands for none. -/
def ScriptLine.instrs : ScriptLine → List Instr
  | .op i => [i]
  | .loop => loopInstrs
  | .ticks n => List.replicate n .tick
  | .blankdig pos => [.setdig pos (-1)]
  | .run n => (List.replicate n (.tick :: loopInstrs)).flatten
  | .input _ => []
  | .reset => []

/-- An operation presented on the event port while BTN_IN is `btn`. -/
def present (btn : Byte) (i : Instr) : PortInput := ⟨false, true, encode i, btn⟩

/-- What the outside presents for the lines, BTN_IN being `btn` at their start (R79). -/
def presentLines (btn : Byte) : List ScriptLine → List PortInput
  | [] => []
  | l :: ls =>
    match l with
    | .input v => ⟨false, false, 0, v⟩ :: presentLines v ls
    | .reset => ⟨true, false, 0, btn⟩ :: presentLines btn ls
    | .op _ | .loop | .ticks _ | .blankdig _ | .run _ => l.instrs.map (present btn) ++ presentLines btn ls

/-- A script starts with an implicit RESET and IN 0x00 (R79). -/
def presentScript (ls : List ScriptLine) : List PortInput := presentLines 0 (.reset :: .input 0 :: ls)

/-- The text of an operation: the mnemonic, operands separated by a comma (R77). -/
def instrText : Instr → String
  | .setdig pos n => "SETDIG " ++ toString pos.val ++ ", " ++ toString n
  | i => i.mnemonic

/-- `;` starts a comment (R77). -/
def dropComment (cs : List Char) : List Char := cs.takeWhile fun c => c != ';'

def dropBlanks (cs : List Char) : List Char := cs.dropWhile fun c => c == ' '

/-- Without the blanks at either end. -/
def trimBlanks (cs : List Char) : List Char := (dropBlanks (dropBlanks cs).reverse).reverse

/-- The value of a digit in a base of at most 16. -/
def digitValue (base : Nat) (c : Char) : Option Nat :=
  let v := c.toNat
  let d := if 48 ≤ v ∧ v ≤ 57 then v - 48
    else if 65 ≤ v ∧ v ≤ 70 then v - 55
    else if 97 ≤ v ∧ v ≤ 102 then v - 87
    else 16
  if d < base then some d else none

/-- The number written by digits, the leading ones worth `acc`. -/
def readDigits (base : Nat) : Nat → List Char → Option Nat
  | acc, [] => some acc
  | acc, c :: cs =>
    match digitValue base c with
    | some d => readDigits base (acc * base + d) cs
    | none => none

/-- An unsigned number, decimal or `0x` hexadecimal. -/
def readNat : List Char → Option Nat
  | [] => none
  | '0' :: 'x' :: c :: cs => readDigits 16 0 (c :: cs)
  | cs => readDigits 10 0 cs

/-- The numeral of SETDIG: a signed decimal -128 .. 127, or `0x` and the raw 8-bit field (R77). -/
def readNumeral : List Char → Option Int
  | '0' :: 'x' :: cs =>
    match readNat ('0' :: 'x' :: cs) with
    | some v => if v < 256 then some (BitVec.ofNat 8 v).toInt else none
    | none => none
  | '-' :: cs =>
    match cs, readDigits 10 0 cs with
    | _ :: _, some v => if v ≤ 128 then some (-(v : Int)) else none
    | _, _ => none
  | cs =>
    match cs, readDigits 10 0 cs with
    | _ :: _, some v => if v ≤ 127 then some v else none
    | _, _ => none

/-- A position, decimal 0 .. 3 (R77). -/
def readPosition (cs : List Char) : Option Position :=
  match cs with
  | ['0'] => some 0
  | ['1'] => some 1
  | ['2'] => some 2
  | ['3'] => some 3
  | _ => none

/-- A byte for `IN`. -/
def readByte (cs : List Char) : Option Byte :=
  match readNat cs with
  | some v => if v < 256 then some (BitVec.ofNat 8 v) else none
  | none => none

/-- The operands of SETDIG, separated by a comma (R77). -/
def readSetdig (cs : List Char) : Option ScriptLine :=
  match cs.dropWhile fun c => c != ',' with
  | [] => none
  | _ :: rest =>
    match readPosition (trimBlanks (cs.takeWhile fun c => c != ',')), readNumeral (trimBlanks rest) with
    | some p, some n => some (.op (.setdig p n))
    | _, _ => none

/-- A line that takes no operand. -/
def bare (l : ScriptLine) (operands : List Char) : Option ScriptLine :=
  match operands with
  | [] => some l
  | _ :: _ => none

/-- One line of text: nothing when it is blank or only a comment, else what it says, if it says anything (R77 to
R79). -/
def readLine (text : List Char) : Option (Option ScriptLine) :=
  let cs := trimBlanks (dropComment text)
  let rest := trimBlanks (cs.dropWhile fun c => c != ' ')
  match cs.takeWhile fun c => c != ' ' with
  | [] => some none
  | ['N', 'O', 'P'] => (bare (.op .nop) rest).map some
  | ['T', 'I', 'C', 'K'] => (bare (.op .tick) rest).map some
  | ['H', 'B', 'T', 'I', 'C', 'K'] => (bare (.op .hbtick) rest).map some
  | ['P', 'O', 'L', 'L', 'D', 'M'] => (bare (.op .polldm) rest).map some
  | ['P', 'O', 'L', 'L', 'D', 'B'] => (bare (.op .polldb) rest).map some
  | ['S', 'E', 'T', 'D', 'I', 'G'] => (readSetdig rest).map some
  | ['L', 'O', 'O', 'P'] => (bare .loop rest).map some
  | ['T', 'I', 'C', 'K', 'S'] => (readNat rest).map fun n => some (.ticks n)
  | ['B', 'L', 'A', 'N', 'K', 'D', 'I', 'G'] => (readPosition rest).map fun p => some (.blankdig p)
  | ['R', 'U', 'N'] => (readNat rest).map fun n => some (.run n)
  | ['I', 'N'] => (readByte rest).map fun v => some (.input v)
  | ['R', 'E', 'S', 'E', 'T'] => (bare .reset rest).map some
  | _ => none

end Sys2Proof.Machine
end

