-- ==== Sys2Proof/Safety.lean ====
section
/-! DEFINITION. Safety.lean: the terms the statements use: feeding presentations to the machine, counting ticks, the
invariant of 42_debounce_fsm.md R127 and its kin, the ownership table of 10_state.md R42, and schedules. -/

namespace Sys2Proof.Machine

/-- One presentation performed on a state, the rest of what the outside will present left alone. -/
def feedPort (p : PortInput) (s : State) : State := nextOr s (performPort p { s with btnIn := p.btn })

/-- Presentations performed one after the other (R59). -/
def feed (ps : List PortInput) (s : State) : State := ps.foldl (fun t p => feedPort p t) s

/-- The operation a presentation performs, if any: none under reset, without the strobe, or on a reserved word. -/
def portOp (p : PortInput) : Option Instr :=
  if p.rst then none
  else if p.evValid then
    match decode p.ev with
    | .ok i => some i
    | .error _ => none
  else none

/-- The state after the operation a presentation performs, or as it was when it performs none. -/
def performOption (o : Option Instr) (s : State) : State :=
  match o with
  | some i => perform i s
  | none => s

/-- How many of the presentations perform the operation `i`. -/
def countOp (i : Instr) (ps : List PortInput) : Nat := ps.countP fun p => portOp p == some i

/-- No presentation asserts reset. -/
abbrev NoReset (ps : List PortInput) : Prop := ∀ p ∈ ps, p.rst = false

/-- The positions refreshed by the presentations, in order: ADI at each POLLDM that finds RFCNT expired (R130). -/
def refreshed : List PortInput → State → List Position
  | [], _ => []
  | p :: ps, s =>
    (if portOp p = some .polldm ∧ s.rfcnt = 0 then [s.adi] else []) ++ refreshed ps (feedPort p s)

/-- The two control states of the Debounce Engine, told apart by DBCNT alone (R121). -/
inductive Phase where
  | armed
  | blackout
  deriving DecidableEq, Repr

/-- ARMED is `DBCNT == 0`, BLACKOUT is `DBCNT != 0` (R121). -/
def State.phase (s : State) : Phase := if s.dbcnt = 0 then .armed else .blackout

/-- What holds after reset and after every step: R127 (a) to (d), R22, R35, the levels between frames of R137, the
levels as DTRACE records them (R18), DTRACE made of whole frames of 16 bits (R82), and ADI counting the refreshes
since reset (R135). -/
structure State.Inv (s : State) : Prop where
  dbstate_masked : s.dbstate &&& ~~~s.cfg.buttonMask = 0
  ind_shows : s.ind &&& s.cfg.buttonMask = s.dbstate
  ind_unrelated : s.ind &&& ~~~s.cfg.buttonMask = s.cfg.indInit &&& ~~~s.cfg.buttonMask
  dbcnt_le : s.dbcnt.toNat ≤ s.cfg.debounceWindow.toNat
  rfcnt_le : s.rfcnt.toNat ≤ s.cfg.refreshInterval.toNat
  digits_encoded : ∀ p : Position, ∃ n : Int, digitRead s p = encodeNumeral s.cfg n
  csN_idle : s.csN = true
  sck_idle : s.sck = false
  levels_recorded : ∀ l : Line, lineLevel l s.dtrace = match l with
    | .sck => s.sck
    | .csN => s.csN
    | .sdo => s.sdo
  frames_whole : ∀ f ∈ frames s.dtrace, f.length = 16
  writes_whole : s.dtrace.length = 50 * (frames s.dtrace).length
  adi_counts : s.adi.val = (frames s.dtrace).length % 4

/-- The execution contexts (R175). The block does not know the context: nothing enforces it (R181). -/
inductive Context where
  | interrupt
  | main
  deriving DecidableEq, Repr

/-- The context an operation belongs to (R175); NOP may come from any agent (R42) and is listed under main. -/
def opContext : Instr → Context
  | .nop => .main
  | .tick => .interrupt
  | .hbtick => .interrupt
  | .polldm => .main
  | .polldb => .main
  | .setdig _ _ => .main

/-- The state elements of R20 as R42's table names them; IND is split into the bits inside and outside
BUTTON_MASK, DIGBUF into its entries. -/
inductive Elem where
  | dbcnt
  | rfcnt
  | dbstate
  | adi
  | hb
  | indMonitored
  | indUnrelated
  | sck
  | csN
  | sdo
  | digit (p : Position)
  deriving DecidableEq, Repr

/-- Two states of one build agree on an element. -/
def Elem.Agree (e : Elem) (s t : State) : Prop :=
  match e with
  | .dbcnt => s.dbcnt = t.dbcnt
  | .rfcnt => s.rfcnt = t.rfcnt
  | .dbstate => s.dbstate = t.dbstate
  | .adi => s.adi = t.adi
  | .hb => s.hb = t.hb
  | .indMonitored => s.ind &&& s.cfg.buttonMask = t.ind &&& t.cfg.buttonMask
  | .indUnrelated => s.ind &&& ~~~s.cfg.buttonMask = t.ind &&& ~~~t.cfg.buttonMask
  | .sck => s.sck = t.sck
  | .csN => s.csN = t.csN
  | .sdo => s.sdo = t.sdo
  | .digit p => digitRead s p = digitRead t p

/-- The column "writes" of R42. -/
def opWrites : Instr → Elem → Bool
  | .nop, _ => false
  | .tick, e => e == .dbcnt || e == .rfcnt
  | .hbtick, e => e == .hb
  | .polldb, e => e == .dbstate || e == .dbcnt || e == .indMonitored
  | .polldm, e => e == .csN || e == .sdo || e == .sck || e == .adi || e == .rfcnt
  | .setdig pos _, e => e == .digit pos

/-- The column "writes" of R42 for DTRACE: only POLLDM writes pins. -/
def opWritesTrace : Instr → Bool
  | .polldm => true
  | .nop | .tick | .hbtick | .polldb | .setdig _ _ => false

/-- The column "reads" of R42 in a state (POLLDM reads the entry ADI names); the constant tables and BTN_IN are not
elements. -/
def opReads (i : Instr) (s : State) (e : Elem) : Bool :=
  match i with
  | .nop => false
  | .tick => e == .dbcnt || e == .rfcnt
  | .hbtick => e == .hb
  | .polldb => e == .dbcnt || e == .dbstate || e == .indMonitored || e == .indUnrelated
  | .polldm => e == .rfcnt || e == .adi || e == .digit s.adi
  | .setdig _ _ => false

/-- Two states that differ in the heartbeat bit and in what the outside presents, and in nothing else (R111). -/
def State.EqButHeartbeat (s t : State) : Prop :=
  t = { s with hb := t.hb, btnIn := t.btnIn, inputs := t.inputs }

/-- The state after `n` presentations of an endless sequence (R160, R161). -/
def feedStream (σ : Nat → PortInput) (s : State) : Nat → State
  | 0 => s
  | n + 1 => feedPort (σ n) (feedStream σ s n)

/-- An endless sequence performs an operation infinitely often. -/
def InfinitelyOften (i : Instr) (σ : Nat → PortInput) : Prop := ∀ n, ∃ m, n ≤ m ∧ portOp (σ m) = some i

/-- The fairness of the main loop: each poll is performed infinitely often (R158, D24). -/
def PollsFair (σ : Nat → PortInput) : Prop := InfinitelyOften .polldm σ ∧ InfinitelyOften .polldb σ

/-- One iteration of the main loop with the button samples of its two presentations, then one TICK (R78, R138). -/
def pollRound (b0 b1 b2 : Byte) : List PortInput := [present b0 .polldm, present b1 .polldb, present b2 .tick]

end Sys2Proof.Machine
end

