-- ==== Sys2Proof/Certificates/Slice0/Obligations.lean ====
section
/-! DEFINITION. Certificates/Slice0/Obligations.lean: the statements for the provers. Each docstring names the rule of
the spec it formalises. A clause that rests on a decision of the spec or a choice of the model names its D number or
its log entry. -/

open Sys2Proof Sys2Proof.Machine

/-! ## Reset -/

/-- R43, R185: every element's reset value. Only ADI = 0 is the source's; SCK and CS_N are the wire contract's idle
levels; the rest are the spec's decisions D6 to D9 (log entry 5); btnIn and inputs are the model's own (entries 2, 5). -/
def Obligations.ResetPutsEveryElementAtItsValue : Prop :=
  State.reset = State.resetOf Config.build ∧
  ∀ c : Config,
    (State.resetOf c).dbcnt = 0 ∧ (State.resetOf c).rfcnt = 0 ∧ (State.resetOf c).dbstate = 0 ∧
    (State.resetOf c).adi = 0 ∧ (State.resetOf c).hb = false ∧
    (∀ i < 8, (State.resetOf c).ind.getLsbD i = (c.indInit.getLsbD i && !c.buttonMask.getLsbD i)) ∧
    (State.resetOf c).sck = false ∧ (State.resetOf c).csN = true ∧ (State.resetOf c).sdo = false ∧
    (∀ p : Position, digitRead (State.resetOf c) p = c.blank) ∧
    (State.resetOf c).dtrace = [] ∧ (State.resetOf c).cfg = c

/-- R185 (D18): RST wins over the event word presented with it, which is discarded, and nothing of the block
survives. -/
def Obligations.ResetOverridesTheEventWord : Prop :=
  ∀ (s : State) (p : PortInput) (rest : List PortInput), s.inputs = p :: rest → p.rst = true →
    step s = .next { State.resetOf s.cfg with btnIn := p.btn, inputs := rest }

/-- R187: the first operations after reset, for every build: TICK does nothing, POLLDM sends position 0 blank, POLLDB
commits at once any monitored line at 1. -/
def Obligations.FirstOperationsAfterReset : Prop :=
  ∀ c : Config,
    exec .tick (State.resetOf c) = .next (State.resetOf c) ∧
    (∃ t, exec .polldm (State.resetOf c) = .next t ∧
      frames t.dtrace = [payloadBits c.blank (c.selectTable.get 0)] ∧ t.adi = 1 ∧ t.rfcnt = c.refreshInterval) ∧
    ∀ v : Byte, v &&& c.buttonMask ≠ 0 →
      ∃ t, exec .polldb { State.resetOf c with btnIn := v } = .next t ∧ t.dbstate = v &&& c.buttonMask ∧
        t.ind &&& c.buttonMask = v &&& c.buttonMask

/-! ## The pulse counters -/

/-- R101. -/
def Obligations.SatDecNeverWraps : Prop :=
  ∀ c : Byte, (c = 0 → satDec c = 0) ∧ (c ≠ 0 → (satDec c).toNat + 1 = c.toNat) ∧ (satDec c).toNat ≤ 254

/-- R100: each counter by its own value alone, and nothing else changes. -/
def Obligations.TickDecrementsEachNonZeroCounter : Prop :=
  ∀ s : State, ∃ t, exec .tick s = .next t ∧
    (s.dbcnt = 0 → t.dbcnt = 0) ∧ (s.dbcnt ≠ 0 → t.dbcnt.toNat + 1 = s.dbcnt.toNat) ∧
    (s.rfcnt = 0 → t.rfcnt = 0) ∧ (s.rfcnt ≠ 0 → t.rfcnt.toNat + 1 = s.rfcnt.toNat) ∧
    t = { s with dbcnt := t.dbcnt, rfcnt := t.rfcnt }

/-- R106, R60 (a), R105: while fewer TICKs than DBCNT have come, whatever else is presented, DBCNT has lost one per
TICK, no commit has happened and the indicators have not moved; the TICK that makes up the number leaves DBCNT 0. -/
def Obligations.DebounceCountdownIsExact : Prop :=
  ∀ (s : State) (ps : List PortInput), NoReset ps → countOp .tick ps < s.dbcnt.toNat →
    (feed ps s).dbcnt.toNat + countOp .tick ps = s.dbcnt.toNat ∧
    (feed ps s).dbstate = s.dbstate ∧ (feed ps s).ind = s.ind ∧
    ∀ p : PortInput, p.rst = false → portOp p = some .tick → countOp .tick ps + 1 = s.dbcnt.toNat →
      (feedPort p (feed ps s)).dbcnt = 0 ∧
      (feedPort p (feed ps s)).dbstate = s.dbstate ∧ (feedPort p (feed ps s)).ind = s.ind

/-- R106, R60 (b), R105: the same of RFCNT, the last TICK included; no refresh happens, so ADI, the lines and DTRACE
stay. -/
def Obligations.RefreshCountdownIsExact : Prop :=
  ∀ (s : State) (ps : List PortInput), NoReset ps → countOp .tick ps < s.rfcnt.toNat →
    (feed ps s).rfcnt.toNat + countOp .tick ps = s.rfcnt.toNat ∧
    (feed ps s).adi = s.adi ∧ (feed ps s).dtrace = s.dtrace ∧
    (feed ps s).sck = s.sck ∧ (feed ps s).csN = s.csN ∧ (feed ps s).sdo = s.sdo ∧
    ∀ p : PortInput, p.rst = false → portOp p = some .tick → countOp .tick ps + 1 = s.rfcnt.toNat →
      (feedPort p (feed ps s)).rfcnt = 0 ∧
      (feedPort p (feed ps s)).adi = s.adi ∧ (feedPort p (feed ps s)).dtrace = s.dtrace

/-! ## The heartbeat -/

/-- R110: HB is inverted, two HBTICKs restore it, and nothing else changes. -/
def Obligations.HbtickTogglesTheHeartbeat : Prop :=
  ∀ s : State, ∃ t, exec .hbtick s = .next t ∧ (t.hb = true ↔ s.hb = false) ∧ t = { s with hb := t.hb } ∧
    exec .hbtick t = .next s

/-- R110: after any presentations without reset HB has been inverted once per HBTICK. -/
def Obligations.HeartbeatCountsParity : Prop :=
  ∀ (s : State) (ps : List PortInput), NoReset ps →
    (feed ps s).hb = (s.hb ^^ decide (countOp .hbtick ps % 2 = 1))

/-- R111: taking every HBTICK out of any presentations changes the final HB (and what the model holds of the outside)
only. -/
def Obligations.HeartbeatIsIsolated : Prop :=
  ∀ (s : State) (ps : List PortInput),
    (feed ps s).EqButHeartbeat (feed (ps.filter fun p => portOp p != some .hbtick) s)

/-! ## The debounce engine and the output stage -/

/-- R116: in BLACKOUT the poll does nothing whatever the input port holds. -/
def Obligations.PolldbDoesNothingInBlackout : Prop :=
  ∀ (s : State) (v : Byte), s.dbcnt ≠ 0 → exec .polldb { s with btnIn := v } = .next { s with btnIn := v }

/-- R120: a sample equal to the committed pattern changes nothing. -/
def Obligations.PolldbIdenticalChangesNothing : Prop :=
  ∀ s : State, s.dbcnt = 0 → s.btnIn &&& s.cfg.buttonMask = s.dbstate → exec .polldb s = .next s

/-- R119: a differing sample is committed in the same poll, the counter reloaded, and the indicators set; nothing else
changes. -/
def Obligations.PolldbCommitsADifferingSample : Prop :=
  ∀ s : State, s.dbcnt = 0 → s.btnIn &&& s.cfg.buttonMask ≠ s.dbstate → ∃ t, exec .polldb s = .next t ∧
    t.dbstate = s.btnIn &&& s.cfg.buttonMask ∧ t.dbcnt = s.cfg.debounceWindow ∧
    (∀ i < 8, t.ind.getLsbD i = if s.cfg.buttonMask.getLsbD i then s.btnIn.getLsbD i else s.ind.getLsbD i) ∧
    t = { s with dbstate := t.dbstate, dbcnt := t.dbcnt, ind := t.ind }

/-- R118: with no committed bit outside the mask, the patterns differ when and only when some monitored bit does. -/
def Obligations.ComparatorSeesAnyMonitoredBit : Prop :=
  ∀ s : State, s.dbcnt = 0 → s.dbstate &&& ~~~s.cfg.buttonMask = 0 →
    ∃ t, exec .polldb s = .next t ∧
      (t.dbstate ≠ s.dbstate ↔
        ∃ i < 8, s.cfg.buttonMask.getLsbD i = true ∧ s.btnIn.getLsbD i ≠ s.dbstate.getLsbD i)

/-- R117: two samples that agree on the monitored bits give the same poll. -/
def Obligations.UnmonitoredBitsNeverInfluence : Prop :=
  ∀ (s : State) (v w : Byte), v &&& s.cfg.buttonMask = w &&& s.cfg.buttonMask →
    ∃ t : State, exec .polldb { s with btnIn := v } = .next { t with btnIn := v } ∧
      exec .polldb { s with btnIn := w } = .next { t with btnIn := w }

/-- R150: bit by bit, and nothing but IND changes. -/
def Obligations.OutputStageKeepsUnrelatedBits : Prop :=
  ∀ (s : State) (p : Byte),
    (∀ i < 8, (outputStage p s).ind.getLsbD i =
      if s.cfg.buttonMask.getLsbD i then p.getLsbD i else s.ind.getLsbD i) ∧
    outputStage p s = { s with ind := (outputStage p s).ind }

/-- R121: ARMED goes to BLACKOUT on a POLLDB that commits, BLACKOUT to ARMED on the TICK that takes DBCNT from 1 to 0,
and no other transition exists but reset, which enters ARMED. -/
def Obligations.DebouncePhasesChangeOnlySo : Prop :=
  ∀ (s t : State) (p : PortInput) (rest : List PortInput), s.inputs = p :: rest → step s = .next t →
    (p.rst = true → t.phase = .armed) ∧
    (p.rst = false → s.phase = .armed → t.phase = .blackout →
      portOp p = some .polldb ∧ t.dbstate ≠ s.dbstate ∧ t.dbcnt = s.cfg.debounceWindow) ∧
    (p.rst = false → s.phase = .blackout → t.phase = .armed → portOp p = some .tick ∧ s.dbcnt = 1) ∧
    (p.rst = false → portOp p = some .polldb → s.phase = .armed → t.dbstate ≠ s.dbstate → t.phase = .blackout) ∧
    (p.rst = false → portOp p = some .tick → s.dbcnt = 1 → t.phase = .armed)

/-- R121, R108 (the source's first testable property): between two changes of DBSTATE, neither of them a reset, at
least DEBOUNCE_WINDOW TICKs come, whatever the input does. -/
def Obligations.CommitsAreAWindowApart : Prop :=
  ∀ (s : State) (a b : PortInput) (ps : List PortInput), a.rst = false → b.rst = false → NoReset ps →
    (feedPort a s).dbstate ≠ s.dbstate →
    (feedPort b (feed ps (feedPort a s))).dbstate ≠ (feed ps (feedPort a s)).dbstate →
    s.cfg.debounceWindow.toNat ≤ countOp .tick ps

/-- R122: two histories of input samples during one blackout, under the same operations, leave the same state: a
bounce inside the window is invisible. -/
def Obligations.SamplesInBlackoutAreInvisible : Prop :=
  ∀ (s : State) (ps qs : List PortInput), NoReset ps → NoReset qs → ps.map portOp = qs.map portOp →
    countOp .tick ps < s.dbcnt.toNat →
    feed ps s = { feed qs s with btnIn := (feed ps s).btnIn }

/-- R124, R125: the update happens at the first POLLDB after DBCNT further TICKs: polls come and go while fewer have
come (`qs`), none comes until they have (`us`), and the next one commits its own sample. -/
def Obligations.FirstPollAfterTheWindowCommits : Prop :=
  ∀ (s : State) (qs us : List PortInput) (b : PortInput), NoReset qs → NoReset us →
    countOp .tick qs < s.dbcnt.toNat → countOp .polldb us = 0 → s.dbcnt.toNat ≤ countOp .tick (qs ++ us) →
    portOp b = some .polldb → b.btn &&& s.cfg.buttonMask ≠ s.dbstate →
    (feed us (feed qs s)).dbstate = s.dbstate ∧
    (feedPort b (feed us (feed qs s))).dbstate = b.btn &&& s.cfg.buttonMask ∧
    (feedPort b (feed us (feed qs s))).dbcnt = s.cfg.debounceWindow

/-- R158, D24: under fair polls and endless TICKs an input that stays is committed in the end, and stays committed. -/
def Obligations.AStableInputIsCommittedInTheEnd : Prop :=
  ∀ (s : State) (σ : Nat → PortInput) (v : Byte) (n₀ : Nat), (∀ n, (σ n).rst = false) → PollsFair σ →
    InfinitelyOften .tick σ → (∀ n, n₀ ≤ n → (σ n).btn &&& s.cfg.buttonMask = v) →
    ∃ N, ∀ n, N ≤ n → (feedStream σ s n).dbstate = v

/-! ## The display multiplexer -/

/-- R131: while RFCNT is not zero no pin is written and no state changes. -/
def Obligations.PolldmDoesNothingBeforeItsTime : Prop :=
  ∀ s : State, s.rfcnt ≠ 0 → exec .polldm s = .next s

/-- R130: while RFCNT is not zero nothing happens; when it is, the frame of the old ADI is written, then ADI advances
and RFCNT is reloaded; nothing else changes. -/
def Obligations.PolldmSendsOneFrameAndAdvances : Prop :=
  ∀ s : State, (s.rfcnt ≠ 0 → exec .polldm s = .next s) ∧ (s.rfcnt = 0 → ∃ t, exec .polldm s = .next t ∧
    t.dtrace = s.dtrace ++ frameRecords (digitRead s s.adi) (s.cfg.selectTable.get s.adi) ∧
    t.dtrace.length = s.dtrace.length + 50 ∧
    t.adi.val = (s.adi.val + 1) % 4 ∧ t.rfcnt = s.cfg.refreshInterval ∧
    t.csN = true ∧ t.sck = false ∧ t.sdo = (s.cfg.selectTable.get s.adi).getLsbD 0 ∧
    t = { s with dtrace := t.dtrace, adi := t.adi, rfcnt := t.rfcnt, csN := t.csN, sck := t.sck, sdo := t.sdo })

/-- R133: eight bit cells, most significant bit first, whatever the byte; SCK is left at 0 and SDO at bit 0. -/
def Obligations.ShiftByteWritesEightCells : Prop :=
  ∀ (s : State) (v : Byte),
    shiftByte v s = { s with
      sck := false, sdo := v.getLsbD 0, dtrace := s.dtrace ++ (bitsMsbFirst v).flatMap cellRecords } ∧
    ((bitsMsbFirst v).flatMap cellRecords).length = 24

/-- R81: a frame is chip-select low, the 16 cells of its payload, each the data, clock high, clock low, and
chip-select high: 50 writes, chip-select not written between the first and the last, so that the 16 rising edges of SCK
counted from its idle level all come while CS_N = 0. -/
def Obligations.AFrameIsFiftyWrites : Prop :=
  ∀ seg sel : Byte, ∃ cells, frameRecords seg sel = ⟨.csN, false⟩ :: cells ++ [⟨.csN, true⟩] ∧
    cells = (payloadBits seg sel).flatMap (fun b => [⟨.sdo, b⟩, ⟨.sck, true⟩, ⟨.sck, false⟩]) ∧
    (payloadBits seg sel).length = 16 ∧ (frameRecords seg sel).length = 50 ∧
    sckRisingEdges false (frameRecords seg sel) = 16 ∧ sckRisingEdges false cells = 16 ∧ cells.countP (fun r => r.line == .csN) = 0 ∧
    cells.countP (fun r => r == ⟨.sck, true⟩) = 16 ∧ cells.countP (fun r => r == ⟨.sck, false⟩) = 16

/-- R82: from an invariant state, the receiver of a refresh gets one more list, the 16 payload bits of the position
refreshed, first bit 15 of `(DIGBUF[ADI] << 8) | SELECT_TABLE[ADI]`. -/
def Obligations.TheReceiverGetsThePayload : Prop :=
  ∀ s : State, s.Inv → s.rfcnt = 0 → ∃ t, exec .polldm s = .next t ∧
    frames t.dtrace = frames s.dtrace ++
      [(List.range 16).map fun k =>
        (payloadWord (digitRead s s.adi) (s.cfg.selectTable.get s.adi)).getLsbD (15 - k)]

/-- R135: the positions refreshed by any presentations without reset are ADI, ADI + 1, ... in increasing cyclic order,
and ADI is left at the one after the last. -/
def Obligations.RefreshesVisitPositionsInOrder : Prop :=
  ∀ (s : State) (ps : List PortInput), NoReset ps →
    (∀ k, (h : k < (refreshed ps s).length) → ((refreshed ps s)[k]).val = (s.adi.val + k) % 4) ∧
    (feed ps s).adi.val = (s.adi.val + (refreshed ps s).length) % 4

/-- R138 (the source's scenario C, for every interval and every number of ticks): with one iteration of the main loop
before every TICK, k rounds from an expired counter make one refresh per REFRESH_INTERVAL rounds begun. -/
def Obligations.RefreshCadence : Prop :=
  ∀ (s : State) (bs : List (Byte × Byte × Byte)), s.rfcnt = 0 →
    (refreshed (bs.flatMap fun b => pollRound b.1 b.2.1 b.2.2) s).length =
      (bs.length + s.cfg.refreshInterval.toNat - 1) / s.cfg.refreshInterval.toNat

/-- R140: the entry named takes the numeral's encoding or BLANK, every other entry and everything else stays. It is
said for every integer; an event word carries -128 to 127 (R74). -/
def Obligations.SetdigStoresTheEncoding : Prop :=
  ∀ (s : State) (pos : Position) (n : Int), ∃ t, exec (.setdig pos n) s = .next t ∧
    (∀ k : Fin 10, n = (k.val : Int) → digitRead t pos = s.cfg.numeralTable.get k) ∧
    (n < 0 ∨ 9 < n → digitRead t pos = s.cfg.blank) ∧
    (∀ p : Position, p ≠ pos → digitRead t p = digitRead s p) ∧
    t = { s with digbuf := t.digbuf }

/-- R141: Encode(n) for every integer, and the transmitted segment byte is that of the numeral set: BLANK outside
0 to 9. -/
def Obligations.TransmittedSegmentIsTheEncoding : Prop :=
  ∀ (s : State) (n : Int),
    (∀ k : Fin 10, n = (k.val : Int) → encodeNumeral s.cfg n = s.cfg.numeralTable.get k) ∧
    (n < 0 ∨ 9 < n → encodeNumeral s.cfg n = s.cfg.blank) ∧
    (s.rfcnt = 0 → ∃ u t, exec (.setdig s.adi n) s = .next u ∧ exec .polldm u = .next t ∧
      t.dtrace = s.dtrace ++ frameRecords (encodeNumeral s.cfg n) (s.cfg.selectTable.get s.adi))

/-- R142, R143, R64 (the source's scenario D): a digit set is what the next refresh of its position sends, whatever
comes between but a reset or another SETDIG of that position. -/
def Obligations.ADigitSetReachesTheWire : Prop :=
  ∀ (s : State) (pos : Position) (n : Int) (ps : List PortInput) (u : State), NoReset ps →
    (∀ p ∈ ps, ∀ m, portOp p ≠ some (.setdig pos m)) →
    exec (.setdig pos n) s = .next u → (feed ps u).adi = pos → (feed ps u).rfcnt = 0 →
    ∃ t, exec .polldm (feed ps u) = .next t ∧
      t.dtrace = (feed ps u).dtrace ++ frameRecords (encodeNumeral s.cfg n) (s.cfg.selectTable.get pos)

/-! ## NOP, the event port and the step -/

/-- R155 (D2): NOP changes nothing. -/
def Obligations.NopChangesNothing : Prop := ∀ s : State, exec .nop s = .next s

/-- R70, R14: a presentation with the strobe and without reset runs the operation its word decodes to, on the state
with the pins taken; the step adds nothing around it. -/
def Obligations.StepRunsTheDecodedOperation : Prop :=
  ∀ (s : State) (p : PortInput) (rest : List PortInput) (i : Instr), s.inputs = p :: rest → p.rst = false →
    p.evValid = true → decode p.ev = .ok i → step s = exec i { s with btnIn := p.btn, inputs := rest }

/-- R70: without the strobe, and when the outside presents nothing more (log entry 2), nothing is performed. -/
def Obligations.WithoutStrobeNothingIsPerformed : Prop :=
  (∀ s : State, s.inputs = [] → step s = .next s) ∧
  ∀ (s : State) (p : PortInput) (rest : List PortInput), s.inputs = p :: rest → p.rst = false → p.evValid = false →
    step s = .next { s with btnIn := p.btn, inputs := rest }

/-- R75 (D3; log entry 4 says why the model ignores the word as the hardware does): a reserved word changes nothing. -/
def Obligations.ReservedWordsAreIgnored : Prop :=
  ∀ (s : State) (p : PortInput) (rest : List PortInput) (e : DecodeError), s.inputs = p :: rest → p.rst = false →
    p.evValid = true → decode p.ev = .error e → step s = .next { s with btnIn := p.btn, inputs := rest }

/-- The word placed by `withFetchWord` is the one the next step runs (log entry 2). -/
def Obligations.APresentedWordRunsNext : Prop :=
  ∀ (s : State) (nbits w : Nat) (i : Instr), decodeTableWord nbits w = some i →
    step (s.withFetchWord nbits w) = exec i s

/-- R159, R165, R181: no operation ever stops, in any state (log entry 9). That no step stops either rests on two
choices of the model as well: a reserved word is ignored as the hardware ignores it, where R75 says a model should
refuse it (D3, log entry 4), and with nothing more presented nothing happens (log entry 2). -/
def Obligations.NothingEverStops : Prop :=
  (∀ (i : Instr) (s : State), ∃ t, exec i s = .next t) ∧ ∀ s : State, ∃ t, step s = .next t

/-- R59: a run of the machine is its presentations performed one after the other. -/
def Obligations.ARunIsItsPresentationsInOrder : Prop :=
  ∀ (s : State) (ps rest : List PortInput),
    Host.Core.run Sys2Proof.core ps.length { s with inputs := ps ++ rest } =
      .next { feed ps s with inputs := rest }

/-- R6, R64: no step changes the build's parameters, the constant tables among them. -/
def Obligations.TheBuildIsConstant : Prop := ∀ s t : State, step s = .next t → t.cfg = s.cfg

/-! ## Encodings -/

/-- R72, R75 (D2): the words of the spec's table and some reserved ones. -/
def Obligations.WordsDecodeAsTheTableSays : Prop :=
  decode 0b0000000000000000#16 = .ok .nop ∧ decode 0b0001000000000000#16 = .ok .tick ∧
  decode 0b0010000000000000#16 = .ok .hbtick ∧ decode 0b0011000000000000#16 = .ok .polldm ∧
  decode 0b0100000000000000#16 = .ok .polldb ∧ decode 0b0101001000000111#16 = .ok (.setdig 2 7) ∧
  decode 0b0101001111111111#16 = .ok (.setdig 3 (-1)) ∧
  decode 0b0001000000000001#16 = .error (.nonZeroOperand 1 1) ∧
  decode 0b0101010000000111#16 = .error (.nonZeroRsv 1) ∧ decode 0b0110000000000000#16 = .error (.reservedOp 6)

/-- R72, R74: every well-formed operation, every operand of SETDIG among them, is read back from its word. -/
def Obligations.DecodeOfEncodeIsTheOperation : Prop :=
  ∀ i : Instr, i.WellFormed → decode (encode i) = .ok i

/-- R72, R73: a word that decodes is the word of the operation it decodes to, which is well formed. -/
def Obligations.EncodeOfDecodeIsTheWord : Prop :=
  ∀ (w : EventWord) (i : Instr), decode w = .ok i → i.WellFormed ∧ encode i = w

/-- R75: the reserved words are exactly those of the rule's three clauses. -/
def Obligations.ReservedWordsAreThoseOfTheRule : Prop :=
  ∀ w : EventWord, (∃ e, decode w = .error e) ↔
    (6 ≤ w.toNat / 4096 ∨ (w.toNat / 4096 ≤ 4 ∧ w.toNat % 4096 ≠ 0) ∨
      (w.toNat / 4096 = 5 ∧ w.toNat / 1024 % 4 ≠ 0))

/-- R72, R73: a word decodes when and only when one row of the opcode map hits it, the row of its mnemonic, and no two
rows hit one word. -/
def Obligations.TheOpcodeMapIsTheDecoder : Prop :=
  ∀ w : EventWord,
    (opTable.filter fun r => r.hits w).map OpRow.mnemonic =
      match decode w with
      | .ok i => [i.mnemonic]
      | .error _ => []

/-- R70, R72, R74: the presentation a script makes of a well-formed operation is one of which the step performs that
operation. -/
def Obligations.AScriptOperationIsPerformed : Prop :=
  ∀ (i : Instr) (btn : Byte) (s : State) (rest : List PortInput), i.WellFormed →
    s.inputs = present btn i :: rest →
    portOp (present btn i) = some i ∧ step s = exec i { s with btnIn := btn, inputs := rest }

/-! ## Invariants and the whole block -/

/-- R127, R35, R137 and the rest of `State.Inv`: every step keeps the invariant. -/
def Obligations.EveryStepKeepsTheInvariant : Prop := ∀ s t : State, s.Inv → step s = .next t → t.Inv

/-- The invariant holds after reset, for every build (its reset values are decisions D6 to D9, log entry 5). -/
def Obligations.ResetMeetsTheInvariant : Prop := State.reset.Inv ∧ ∀ c : Config, (State.resetOf c).Inv

/-- R42, column "writes": an operation leaves every element outside its row as it was, and only POLLDM writes a
pin. -/
def Obligations.OperationsWriteOnlyTheirRow : Prop :=
  ∀ (i : Instr) (s t : State), exec i s = .next t →
    (∀ e : Elem, opWrites i e = false → e.Agree s t) ∧ (opWritesTrace i = false → t.dtrace = s.dtrace) ∧
    t.cfg = s.cfg ∧ t.btnIn = s.btnIn ∧ t.inputs = s.inputs

/-- R42, column "reads": of two states of one build that agree on what an operation reads (for POLLDB the input sample
too, which no other operation reads), each element ends equal or is left alone in both, and the same pin writes are
added. -/
def Obligations.OperationsReadOnlyTheirRow : Prop :=
  ∀ (i : Instr) (s s' t t' : State), s.cfg = s'.cfg → (i = .polldb → s.btnIn = s'.btnIn) →
    (∀ e : Elem, opReads i s e = true → e.Agree s s') → exec i s = .next t → exec i s' = .next t' →
    (∀ e : Elem, e.Agree t t' ∨ (e.Agree s t ∧ e.Agree s' t')) ∧
    ∃ d, t.dtrace = s.dtrace ++ d ∧ t'.dtrace = s'.dtrace ++ d

/-- R175, R60 (d), R111: interrupt context writes only DBCNT and RFCNT, by decrement, and HB; main context never
writes HB, and changes a counter only by its reload. -/
def Obligations.EachContextMutatesItsSubset : Prop :=
  ∀ (i : Instr) (s t : State), exec i s = .next t →
    (opContext i = .interrupt →
      t = { s with dbcnt := t.dbcnt, rfcnt := t.rfcnt, hb := t.hb } ∧
      (t.dbcnt = s.dbcnt ∨ t.dbcnt.toNat + 1 = s.dbcnt.toNat) ∧
      (t.rfcnt = s.rfcnt ∨ t.rfcnt.toNat + 1 = s.rfcnt.toNat)) ∧
    (opContext i = .main →
      t.hb = s.hb ∧ (t.dbcnt = s.dbcnt ∨ (s.dbcnt = 0 ∧ t.dbcnt = s.cfg.debounceWindow)) ∧
      (t.rfcnt = s.rfcnt ∨ (s.rfcnt = 0 ∧ t.rfcnt = s.cfg.refreshInterval)))

/-- R61: the two polls commute, with the same input sample and the same DTRACE. -/
def Obligations.ThePollsCommute : Prop :=
  ∀ s : State, ∃ a b t, exec .polldm s = .next a ∧ exec .polldb a = .next t ∧
    exec .polldb s = .next b ∧ exec .polldm b = .next t

/-- R61: HBTICK commutes with every operation, TICK with HBTICK, SETDIG and NOP. -/
def Obligations.TheHandlersCommute : Prop :=
  (∀ (i : Instr) (s : State), ∃ a b t, exec .hbtick s = .next a ∧ exec i a = .next t ∧
    exec i s = .next b ∧ exec .hbtick b = .next t) ∧
  ∀ (i : Instr) (s : State), (i = .hbtick ∨ i = .nop ∨ ∃ pos n, i = .setdig pos n) →
    ∃ a b t, exec .tick s = .next a ∧ exec i a = .next t ∧ exec i s = .next b ∧ exec .tick b = .next t

/-- R196 (d), (e), for POLLDM: handlers taken at any places among its writes give the state of the atomic poll with
some of them before it and the rest after it. -/
def Obligations.APreemptedPolldmIsAtomic : Prop :=
  ∀ (s : State) (xs : List Slot), microsOf xs = polldmMicros s →
    ∃ before after, handlersOf xs = before ++ after ∧
      runSlots xs s = runHandlers after (perform .polldm (runHandlers before s))

/-- R196 (a), (b), (c), (e), for POLLDB. -/
def Obligations.APreemptedPolldbIsAtomic : Prop :=
  ∀ (s : State) (xs : List Slot), microsOf xs = polldbMicros s →
    ∃ before after, handlersOf xs = before ++ after ∧
      runSlots xs s = runHandlers after (perform .polldb (runHandlers before s))
end

