-- ==== Sys2Proof/Laws/State.lean ====
section
/-! SUPPORT. Laws/State.lean: each field after each named update of Machine/Ops.lean, true by rfl, so that no later
proof unfolds a record update. -/

namespace Sys2Proof.Machine

variable (s : State)

@[simp] theorem pinWrite_sck_dbcnt (b : Bool) : (pinWrite .sck b s).dbcnt = s.dbcnt := rfl
@[simp] theorem pinWrite_sck_rfcnt (b : Bool) : (pinWrite .sck b s).rfcnt = s.rfcnt := rfl
@[simp] theorem pinWrite_sck_dbstate (b : Bool) : (pinWrite .sck b s).dbstate = s.dbstate := rfl
@[simp] theorem pinWrite_sck_adi (b : Bool) : (pinWrite .sck b s).adi = s.adi := rfl
@[simp] theorem pinWrite_sck_hb (b : Bool) : (pinWrite .sck b s).hb = s.hb := rfl
@[simp] theorem pinWrite_sck_ind (b : Bool) : (pinWrite .sck b s).ind = s.ind := rfl
@[simp] theorem pinWrite_sck_sck (b : Bool) : (pinWrite .sck b s).sck = b := rfl
@[simp] theorem pinWrite_sck_csN (b : Bool) : (pinWrite .sck b s).csN = s.csN := rfl
@[simp] theorem pinWrite_sck_sdo (b : Bool) : (pinWrite .sck b s).sdo = s.sdo := rfl
@[simp] theorem pinWrite_sck_digbuf (b : Bool) : (pinWrite .sck b s).digbuf = s.digbuf := rfl
@[simp] theorem pinWrite_sck_dtrace (b : Bool) : (pinWrite .sck b s).dtrace = s.dtrace ++ [⟨.sck, b⟩] := rfl
@[simp] theorem pinWrite_sck_btnIn (b : Bool) : (pinWrite .sck b s).btnIn = s.btnIn := rfl
@[simp] theorem pinWrite_sck_inputs (b : Bool) : (pinWrite .sck b s).inputs = s.inputs := rfl
@[simp] theorem pinWrite_sck_cfg (b : Bool) : (pinWrite .sck b s).cfg = s.cfg := rfl

@[simp] theorem pinWrite_csN_dbcnt (b : Bool) : (pinWrite .csN b s).dbcnt = s.dbcnt := rfl
@[simp] theorem pinWrite_csN_rfcnt (b : Bool) : (pinWrite .csN b s).rfcnt = s.rfcnt := rfl
@[simp] theorem pinWrite_csN_dbstate (b : Bool) : (pinWrite .csN b s).dbstate = s.dbstate := rfl
@[simp] theorem pinWrite_csN_adi (b : Bool) : (pinWrite .csN b s).adi = s.adi := rfl
@[simp] theorem pinWrite_csN_hb (b : Bool) : (pinWrite .csN b s).hb = s.hb := rfl
@[simp] theorem pinWrite_csN_ind (b : Bool) : (pinWrite .csN b s).ind = s.ind := rfl
@[simp] theorem pinWrite_csN_sck (b : Bool) : (pinWrite .csN b s).sck = s.sck := rfl
@[simp] theorem pinWrite_csN_csN (b : Bool) : (pinWrite .csN b s).csN = b := rfl
@[simp] theorem pinWrite_csN_sdo (b : Bool) : (pinWrite .csN b s).sdo = s.sdo := rfl
@[simp] theorem pinWrite_csN_digbuf (b : Bool) : (pinWrite .csN b s).digbuf = s.digbuf := rfl
@[simp] theorem pinWrite_csN_dtrace (b : Bool) : (pinWrite .csN b s).dtrace = s.dtrace ++ [⟨.csN, b⟩] := rfl
@[simp] theorem pinWrite_csN_btnIn (b : Bool) : (pinWrite .csN b s).btnIn = s.btnIn := rfl
@[simp] theorem pinWrite_csN_inputs (b : Bool) : (pinWrite .csN b s).inputs = s.inputs := rfl
@[simp] theorem pinWrite_csN_cfg (b : Bool) : (pinWrite .csN b s).cfg = s.cfg := rfl

@[simp] theorem pinWrite_sdo_dbcnt (b : Bool) : (pinWrite .sdo b s).dbcnt = s.dbcnt := rfl
@[simp] theorem pinWrite_sdo_rfcnt (b : Bool) : (pinWrite .sdo b s).rfcnt = s.rfcnt := rfl
@[simp] theorem pinWrite_sdo_dbstate (b : Bool) : (pinWrite .sdo b s).dbstate = s.dbstate := rfl
@[simp] theorem pinWrite_sdo_adi (b : Bool) : (pinWrite .sdo b s).adi = s.adi := rfl
@[simp] theorem pinWrite_sdo_hb (b : Bool) : (pinWrite .sdo b s).hb = s.hb := rfl
@[simp] theorem pinWrite_sdo_ind (b : Bool) : (pinWrite .sdo b s).ind = s.ind := rfl
@[simp] theorem pinWrite_sdo_sck (b : Bool) : (pinWrite .sdo b s).sck = s.sck := rfl
@[simp] theorem pinWrite_sdo_csN (b : Bool) : (pinWrite .sdo b s).csN = s.csN := rfl
@[simp] theorem pinWrite_sdo_sdo (b : Bool) : (pinWrite .sdo b s).sdo = b := rfl
@[simp] theorem pinWrite_sdo_digbuf (b : Bool) : (pinWrite .sdo b s).digbuf = s.digbuf := rfl
@[simp] theorem pinWrite_sdo_dtrace (b : Bool) : (pinWrite .sdo b s).dtrace = s.dtrace ++ [⟨.sdo, b⟩] := rfl
@[simp] theorem pinWrite_sdo_btnIn (b : Bool) : (pinWrite .sdo b s).btnIn = s.btnIn := rfl
@[simp] theorem pinWrite_sdo_inputs (b : Bool) : (pinWrite .sdo b s).inputs = s.inputs := rfl
@[simp] theorem pinWrite_sdo_cfg (b : Bool) : (pinWrite .sdo b s).cfg = s.cfg := rfl

@[simp] theorem advanceDigit_dbcnt : (advanceDigit s).dbcnt = s.dbcnt := rfl
@[simp] theorem advanceDigit_rfcnt : (advanceDigit s).rfcnt = s.rfcnt := rfl
@[simp] theorem advanceDigit_dbstate : (advanceDigit s).dbstate = s.dbstate := rfl
@[simp] theorem advanceDigit_adi : (advanceDigit s).adi = s.adi + 1 := rfl
@[simp] theorem advanceDigit_hb : (advanceDigit s).hb = s.hb := rfl
@[simp] theorem advanceDigit_ind : (advanceDigit s).ind = s.ind := rfl
@[simp] theorem advanceDigit_sck : (advanceDigit s).sck = s.sck := rfl
@[simp] theorem advanceDigit_csN : (advanceDigit s).csN = s.csN := rfl
@[simp] theorem advanceDigit_sdo : (advanceDigit s).sdo = s.sdo := rfl
@[simp] theorem advanceDigit_digbuf : (advanceDigit s).digbuf = s.digbuf := rfl
@[simp] theorem advanceDigit_dtrace : (advanceDigit s).dtrace = s.dtrace := rfl
@[simp] theorem advanceDigit_btnIn : (advanceDigit s).btnIn = s.btnIn := rfl
@[simp] theorem advanceDigit_inputs : (advanceDigit s).inputs = s.inputs := rfl
@[simp] theorem advanceDigit_cfg : (advanceDigit s).cfg = s.cfg := rfl

@[simp] theorem digitWrite_dbcnt (p : Position) (v : Byte) : (digitWrite p v s).dbcnt = s.dbcnt := rfl
@[simp] theorem digitWrite_rfcnt (p : Position) (v : Byte) : (digitWrite p v s).rfcnt = s.rfcnt := rfl
@[simp] theorem digitWrite_dbstate (p : Position) (v : Byte) : (digitWrite p v s).dbstate = s.dbstate := rfl
@[simp] theorem digitWrite_adi (p : Position) (v : Byte) : (digitWrite p v s).adi = s.adi := rfl
@[simp] theorem digitWrite_hb (p : Position) (v : Byte) : (digitWrite p v s).hb = s.hb := rfl
@[simp] theorem digitWrite_ind (p : Position) (v : Byte) : (digitWrite p v s).ind = s.ind := rfl
@[simp] theorem digitWrite_sck (p : Position) (v : Byte) : (digitWrite p v s).sck = s.sck := rfl
@[simp] theorem digitWrite_csN (p : Position) (v : Byte) : (digitWrite p v s).csN = s.csN := rfl
@[simp] theorem digitWrite_sdo (p : Position) (v : Byte) : (digitWrite p v s).sdo = s.sdo := rfl
@[simp] theorem digitWrite_digbuf (p : Position) (v : Byte) : (digitWrite p v s).digbuf = s.digbuf.set p.val v p.isLt := rfl
@[simp] theorem digitWrite_dtrace (p : Position) (v : Byte) : (digitWrite p v s).dtrace = s.dtrace := rfl
@[simp] theorem digitWrite_btnIn (p : Position) (v : Byte) : (digitWrite p v s).btnIn = s.btnIn := rfl
@[simp] theorem digitWrite_inputs (p : Position) (v : Byte) : (digitWrite p v s).inputs = s.inputs := rfl
@[simp] theorem digitWrite_cfg (p : Position) (v : Byte) : (digitWrite p v s).cfg = s.cfg := rfl

@[simp] theorem reloadRefresh_dbcnt : (reloadRefresh s).dbcnt = s.dbcnt := rfl
@[simp] theorem reloadRefresh_rfcnt : (reloadRefresh s).rfcnt = s.cfg.refreshInterval := rfl
@[simp] theorem reloadRefresh_dbstate : (reloadRefresh s).dbstate = s.dbstate := rfl
@[simp] theorem reloadRefresh_adi : (reloadRefresh s).adi = s.adi := rfl
@[simp] theorem reloadRefresh_hb : (reloadRefresh s).hb = s.hb := rfl
@[simp] theorem reloadRefresh_ind : (reloadRefresh s).ind = s.ind := rfl
@[simp] theorem reloadRefresh_sck : (reloadRefresh s).sck = s.sck := rfl
@[simp] theorem reloadRefresh_csN : (reloadRefresh s).csN = s.csN := rfl
@[simp] theorem reloadRefresh_sdo : (reloadRefresh s).sdo = s.sdo := rfl
@[simp] theorem reloadRefresh_digbuf : (reloadRefresh s).digbuf = s.digbuf := rfl
@[simp] theorem reloadRefresh_dtrace : (reloadRefresh s).dtrace = s.dtrace := rfl
@[simp] theorem reloadRefresh_btnIn : (reloadRefresh s).btnIn = s.btnIn := rfl
@[simp] theorem reloadRefresh_inputs : (reloadRefresh s).inputs = s.inputs := rfl
@[simp] theorem reloadRefresh_cfg : (reloadRefresh s).cfg = s.cfg := rfl

@[simp] theorem reloadDebounce_dbcnt : (reloadDebounce s).dbcnt = s.cfg.debounceWindow := rfl
@[simp] theorem reloadDebounce_rfcnt : (reloadDebounce s).rfcnt = s.rfcnt := rfl
@[simp] theorem reloadDebounce_dbstate : (reloadDebounce s).dbstate = s.dbstate := rfl
@[simp] theorem reloadDebounce_adi : (reloadDebounce s).adi = s.adi := rfl
@[simp] theorem reloadDebounce_hb : (reloadDebounce s).hb = s.hb := rfl
@[simp] theorem reloadDebounce_ind : (reloadDebounce s).ind = s.ind := rfl
@[simp] theorem reloadDebounce_sck : (reloadDebounce s).sck = s.sck := rfl
@[simp] theorem reloadDebounce_csN : (reloadDebounce s).csN = s.csN := rfl
@[simp] theorem reloadDebounce_sdo : (reloadDebounce s).sdo = s.sdo := rfl
@[simp] theorem reloadDebounce_digbuf : (reloadDebounce s).digbuf = s.digbuf := rfl
@[simp] theorem reloadDebounce_dtrace : (reloadDebounce s).dtrace = s.dtrace := rfl
@[simp] theorem reloadDebounce_btnIn : (reloadDebounce s).btnIn = s.btnIn := rfl
@[simp] theorem reloadDebounce_inputs : (reloadDebounce s).inputs = s.inputs := rfl
@[simp] theorem reloadDebounce_cfg : (reloadDebounce s).cfg = s.cfg := rfl

@[simp] theorem commitPattern_dbcnt (p : Byte) : (commitPattern p s).dbcnt = s.dbcnt := rfl
@[simp] theorem commitPattern_rfcnt (p : Byte) : (commitPattern p s).rfcnt = s.rfcnt := rfl
@[simp] theorem commitPattern_dbstate (p : Byte) : (commitPattern p s).dbstate = p := rfl
@[simp] theorem commitPattern_adi (p : Byte) : (commitPattern p s).adi = s.adi := rfl
@[simp] theorem commitPattern_hb (p : Byte) : (commitPattern p s).hb = s.hb := rfl
@[simp] theorem commitPattern_ind (p : Byte) : (commitPattern p s).ind = s.ind := rfl
@[simp] theorem commitPattern_sck (p : Byte) : (commitPattern p s).sck = s.sck := rfl
@[simp] theorem commitPattern_csN (p : Byte) : (commitPattern p s).csN = s.csN := rfl
@[simp] theorem commitPattern_sdo (p : Byte) : (commitPattern p s).sdo = s.sdo := rfl
@[simp] theorem commitPattern_digbuf (p : Byte) : (commitPattern p s).digbuf = s.digbuf := rfl
@[simp] theorem commitPattern_dtrace (p : Byte) : (commitPattern p s).dtrace = s.dtrace := rfl
@[simp] theorem commitPattern_btnIn (p : Byte) : (commitPattern p s).btnIn = s.btnIn := rfl
@[simp] theorem commitPattern_inputs (p : Byte) : (commitPattern p s).inputs = s.inputs := rfl
@[simp] theorem commitPattern_cfg (p : Byte) : (commitPattern p s).cfg = s.cfg := rfl

@[simp] theorem outputStage_dbcnt (p : Byte) : (outputStage p s).dbcnt = s.dbcnt := rfl
@[simp] theorem outputStage_rfcnt (p : Byte) : (outputStage p s).rfcnt = s.rfcnt := rfl
@[simp] theorem outputStage_dbstate (p : Byte) : (outputStage p s).dbstate = s.dbstate := rfl
@[simp] theorem outputStage_adi (p : Byte) : (outputStage p s).adi = s.adi := rfl
@[simp] theorem outputStage_hb (p : Byte) : (outputStage p s).hb = s.hb := rfl
@[simp] theorem outputStage_ind (p : Byte) : (outputStage p s).ind = (s.ind &&& ~~~s.cfg.buttonMask) ||| (p &&& s.cfg.buttonMask) := rfl
@[simp] theorem outputStage_sck (p : Byte) : (outputStage p s).sck = s.sck := rfl
@[simp] theorem outputStage_csN (p : Byte) : (outputStage p s).csN = s.csN := rfl
@[simp] theorem outputStage_sdo (p : Byte) : (outputStage p s).sdo = s.sdo := rfl
@[simp] theorem outputStage_digbuf (p : Byte) : (outputStage p s).digbuf = s.digbuf := rfl
@[simp] theorem outputStage_dtrace (p : Byte) : (outputStage p s).dtrace = s.dtrace := rfl
@[simp] theorem outputStage_btnIn (p : Byte) : (outputStage p s).btnIn = s.btnIn := rfl
@[simp] theorem outputStage_inputs (p : Byte) : (outputStage p s).inputs = s.inputs := rfl
@[simp] theorem outputStage_cfg (p : Byte) : (outputStage p s).cfg = s.cfg := rfl

@[simp] theorem latchPort_dbcnt (p : PortInput) (r : List PortInput) : (latchPort p r s).dbcnt = s.dbcnt := rfl
@[simp] theorem latchPort_rfcnt (p : PortInput) (r : List PortInput) : (latchPort p r s).rfcnt = s.rfcnt := rfl
@[simp] theorem latchPort_dbstate (p : PortInput) (r : List PortInput) : (latchPort p r s).dbstate = s.dbstate := rfl
@[simp] theorem latchPort_adi (p : PortInput) (r : List PortInput) : (latchPort p r s).adi = s.adi := rfl
@[simp] theorem latchPort_hb (p : PortInput) (r : List PortInput) : (latchPort p r s).hb = s.hb := rfl
@[simp] theorem latchPort_ind (p : PortInput) (r : List PortInput) : (latchPort p r s).ind = s.ind := rfl
@[simp] theorem latchPort_sck (p : PortInput) (r : List PortInput) : (latchPort p r s).sck = s.sck := rfl
@[simp] theorem latchPort_csN (p : PortInput) (r : List PortInput) : (latchPort p r s).csN = s.csN := rfl
@[simp] theorem latchPort_sdo (p : PortInput) (r : List PortInput) : (latchPort p r s).sdo = s.sdo := rfl
@[simp] theorem latchPort_digbuf (p : PortInput) (r : List PortInput) : (latchPort p r s).digbuf = s.digbuf := rfl
@[simp] theorem latchPort_dtrace (p : PortInput) (r : List PortInput) : (latchPort p r s).dtrace = s.dtrace := rfl
@[simp] theorem latchPort_btnIn (p : PortInput) (r : List PortInput) : (latchPort p r s).btnIn = p.btn := rfl
@[simp] theorem latchPort_inputs (p : PortInput) (r : List PortInput) : (latchPort p r s).inputs = r := rfl
@[simp] theorem latchPort_cfg (p : PortInput) (r : List PortInput) : (latchPort p r s).cfg = s.cfg := rfl

@[simp] theorem presentWord_dbcnt (w : EventWord) : (presentWord w s).dbcnt = s.dbcnt := rfl
@[simp] theorem presentWord_rfcnt (w : EventWord) : (presentWord w s).rfcnt = s.rfcnt := rfl
@[simp] theorem presentWord_dbstate (w : EventWord) : (presentWord w s).dbstate = s.dbstate := rfl
@[simp] theorem presentWord_adi (w : EventWord) : (presentWord w s).adi = s.adi := rfl
@[simp] theorem presentWord_hb (w : EventWord) : (presentWord w s).hb = s.hb := rfl
@[simp] theorem presentWord_ind (w : EventWord) : (presentWord w s).ind = s.ind := rfl
@[simp] theorem presentWord_sck (w : EventWord) : (presentWord w s).sck = s.sck := rfl
@[simp] theorem presentWord_csN (w : EventWord) : (presentWord w s).csN = s.csN := rfl
@[simp] theorem presentWord_sdo (w : EventWord) : (presentWord w s).sdo = s.sdo := rfl
@[simp] theorem presentWord_digbuf (w : EventWord) : (presentWord w s).digbuf = s.digbuf := rfl
@[simp] theorem presentWord_dtrace (w : EventWord) : (presentWord w s).dtrace = s.dtrace := rfl
@[simp] theorem presentWord_btnIn (w : EventWord) : (presentWord w s).btnIn = s.btnIn := rfl
@[simp] theorem presentWord_inputs (w : EventWord) : (presentWord w s).inputs = ⟨false, true, w, s.btnIn⟩ :: s.inputs := rfl
@[simp] theorem presentWord_cfg (w : EventWord) : (presentWord w s).cfg = s.cfg := rfl

@[simp] theorem resetBlock_dbcnt : (resetBlock s).dbcnt = 0#8 := rfl
@[simp] theorem resetBlock_rfcnt : (resetBlock s).rfcnt = 0#8 := rfl
@[simp] theorem resetBlock_dbstate : (resetBlock s).dbstate = 0#8 := rfl
@[simp] theorem resetBlock_adi : (resetBlock s).adi = 0 := rfl
@[simp] theorem resetBlock_hb : (resetBlock s).hb = false := rfl
@[simp] theorem resetBlock_ind : (resetBlock s).ind = s.cfg.indInit &&& ~~~s.cfg.buttonMask := rfl
@[simp] theorem resetBlock_sck : (resetBlock s).sck = false := rfl
@[simp] theorem resetBlock_csN : (resetBlock s).csN = true := rfl
@[simp] theorem resetBlock_sdo : (resetBlock s).sdo = false := rfl
@[simp] theorem resetBlock_digbuf : (resetBlock s).digbuf = Vector.replicate 4 s.cfg.blank := rfl
@[simp] theorem resetBlock_dtrace : (resetBlock s).dtrace = [] := rfl
@[simp] theorem resetBlock_btnIn : (resetBlock s).btnIn = s.btnIn := rfl
@[simp] theorem resetBlock_inputs : (resetBlock s).inputs = s.inputs := rfl
@[simp] theorem resetBlock_cfg : (resetBlock s).cfg = s.cfg := rfl

end Sys2Proof.Machine
end

