-- ==== Sys2Proof/Laws/Ops.lean ====
section
/-! SUPPORT. Laws/Ops.lean: for each shared operation, once, all it does. -/

namespace Sys2Proof.Machine

theorem expired_iff (c : Byte) : expired c = true ↔ c = 0#8 := by simp [expired]

theorem expired_false_iff (c : Byte) : expired c = false ↔ c ≠ 0#8 := by simp [expired]

theorem differs_iff (v w : Byte) : differs v w = true ↔ v ≠ w := by simp [differs]

@[simp] theorem satDec_zero : satDec 0#8 = 0#8 := rfl

/-- The whole of SatDec on numbers: truncated subtraction of one (R101). -/
theorem satDec_toNat (c : Byte) : (satDec c).toNat = c.toNat - 1 := by
  unfold satDec
  split
  · rename_i h
    simp [(expired_iff c).1 h]
  · rename_i h
    have h0 : c ≠ 0#8 := fun e => h ((expired_iff c).2 e)
    have h1 : 1 ≤ c.toNat := by
      rcases Nat.eq_zero_or_pos c.toNat with h2 | h2
      · exact absurd (BitVec.eq_of_toNat_eq (by simpa using h2)) h0
      · exact h2
    rw [BitVec.toNat_sub_of_le (by simpa [BitVec.le_def] using h1)]
    rfl

theorem numeralIndex_of_fin (k : Fin 10) : numeralIndex (k.val : Int) = some k := by
  have := k.isLt
  unfold numeralIndex
  rw [dif_pos ⟨by omega, by omega⟩]
  exact congrArg some (Fin.ext (by simp))

theorem numeralIndex_of_out {n : Int} (h : n < 0 ∨ 9 < n) : numeralIndex n = none := by
  unfold numeralIndex
  rw [dif_neg (by omega)]

/-- Encode in range (R141). -/
theorem encodeNumeral_of_fin (c : Config) (k : Fin 10) :
    encodeNumeral c (k.val : Int) = c.numeralTable.get k := by
  simp only [encodeNumeral, numeralIndex_of_fin]

/-- Encode out of range (R141). -/
theorem encodeNumeral_of_out (c : Config) {n : Int} (h : n < 0 ∨ 9 < n) : encodeNumeral c n = c.blank := by
  simp only [encodeNumeral, numeralIndex_of_out h]

/-! The digit buffer: a read after a write. -/

theorem digitRead_digitWrite_same (p : Position) (v : Byte) (s : State) :
    digitRead (digitWrite p v s) p = v := by
  simp [digitRead, digitWrite, Vector.get_eq_getElem]

theorem digitRead_digitWrite_other {p q : Position} (h : q ≠ p) (v : Byte) (s : State) :
    digitRead (digitWrite p v s) q = digitRead s q := by
  have : p.val ≠ q.val := fun e => h (Fin.ext e.symm)
  simp [digitRead, digitWrite, Vector.get_eq_getElem, Vector.getElem_set_ne, this]

/-! The serial shifter: all that a bit cell, a byte and a frame do. -/

theorem bitCell_eq (b : Bool) (s : State) :
    bitCell b s = { s with sck := false, sdo := b, dtrace := s.dtrace ++ cellRecords b } := by
  simp [bitCell, pinWrite, cellRecords]

/-- All that ShiftByte does (R133). -/
theorem shiftByte_eq (v : Byte) (s : State) :
    shiftByte v s = { s with
      sck := false, sdo := v.getLsbD 0, dtrace := s.dtrace ++ (bitsMsbFirst v).flatMap cellRecords } := by
  simp [shiftByte, shiftBits, bitCell_eq, bitsMsbFirst]

/-- All that a frame does (R80, R132). -/
theorem sendFrame_eq (seg sel : Byte) (s : State) :
    sendFrame seg sel s = { s with
      csN := true, sck := false, sdo := sel.getLsbD 0, dtrace := s.dtrace ++ frameRecords seg sel } := by
  simp [sendFrame, shiftByte_eq, pinWrite, frameRecords, payloadBits]

theorem frameRecords_length (seg sel : Byte) : (frameRecords seg sel).length = 50 := by
  simp [frameRecords, payloadBits, bitsMsbFirst, cellRecords]

/-! The receiver (R82). -/

theorem receive_append (d e : List PinRecord) : receive (d ++ e) = e.foldl Receiver.take (receive d) := by
  simp [receive]

/-- One bit cell inside a frame gives the receiver its bit. -/
theorem take_cell (b sdo : Bool) (bits : List Bool) (em : List (List Bool)) :
    (cellRecords b).foldl Receiver.take ⟨false, false, sdo, bits, em⟩ = ⟨false, false, b, bits ++ [b], em⟩ := by
  simp [cellRecords, Receiver.take]

/-- The cells of a list of bits give the receiver the list. -/
theorem take_cells (bs : List Bool) (sdo : Bool) (bits : List Bool) (em : List (List Bool)) :
    (bs.flatMap cellRecords).foldl Receiver.take ⟨false, false, sdo, bits, em⟩ =
      ⟨false, false, bs.getLastD sdo, bits ++ bs, em⟩ := by
  induction bs generalizing sdo bits with
  | nil => simp
  | cons b bs ih =>
    rw [List.flatMap_cons, List.foldl_append, take_cell, ih]
    cases bs <;> simp [List.getLast?_cons]

/-- A frame, from idle lines, gives the receiver one list: its payload. -/
theorem take_frame (seg sel : Byte) (r : Receiver) (hs : r.sck = false) (hc : r.csN = true) :
    (frameRecords seg sel).foldl Receiver.take r =
      ⟨false, true, sel.getLsbD 0, [], r.emitted ++ [payloadBits seg sel]⟩ := by
  obtain ⟨sck, csN, sdo, bits, em⟩ := r
  obtain rfl : sck = false := hs
  obtain rfl : csN = true := hc
  have h : Receiver.take ⟨false, true, sdo, bits, em⟩ ⟨.csN, false⟩ = ⟨false, false, sdo, [], em⟩ := rfl
  rw [frameRecords, List.cons_append, List.foldl_cons, h, List.foldl_append, take_cells]
  simp [Receiver.take, payloadBits, bitsMsbFirst]

@[simp] theorem sckRisingEdges_nil (was : Bool) : sckRisingEdges was [] = 0 := rfl

@[simp] theorem sckRisingEdges_sck (was b : Bool) (ps : List PinRecord) :
    sckRisingEdges was (⟨.sck, b⟩ :: ps) = (if !was && b then 1 else 0) + sckRisingEdges b ps := rfl

@[simp] theorem sckRisingEdges_csN (was b : Bool) (ps : List PinRecord) :
    sckRisingEdges was (⟨.csN, b⟩ :: ps) = sckRisingEdges was ps := rfl

@[simp] theorem sckRisingEdges_sdo (was b : Bool) (ps : List PinRecord) :
    sckRisingEdges was (⟨.sdo, b⟩ :: ps) = sckRisingEdges was ps := rfl

end Sys2Proof.Machine
end

