-- ==== Sys2Proof/Laws/Exec.lean ====
section
/-! SUPPORT. Laws/Exec.lean: what each meaning and the step answer, once, for the proofs to cite. -/

namespace Sys2Proof.Machine

theorem exec_nop (s : State) : exec .nop s = .next s := rfl

theorem exec_tick (s : State) :
    exec .tick s = .next { s with dbcnt := satDec s.dbcnt, rfcnt := satDec s.rfcnt } := rfl

theorem exec_hbtick (s : State) : exec .hbtick s = .next { s with hb := !s.hb } := rfl

theorem exec_setdig (p : Position) (n : Int) (s : State) :
    exec (.setdig p n) s = .next (digitWrite p (encodeNumeral s.cfg n) s) := rfl

theorem exec_polldm_waits {s : State} (h : s.rfcnt ≠ 0#8) : exec .polldm s = .next s := by
  simp [exec, execPolldm, (expired_false_iff _).2 h]

/-- All that a refresh does (R130). -/
theorem refreshDigit_eq (s : State) :
    refreshDigit s = { s with
      csN := true, sck := false, sdo := (selectRead s s.adi).getLsbD 0,
      dtrace := s.dtrace ++ frameRecords (digitRead s s.adi) (selectRead s s.adi),
      adi := s.adi + 1, rfcnt := s.cfg.refreshInterval } := by
  simp [refreshDigit, sendFrame_eq, advanceDigit, reloadRefresh]

theorem exec_polldm_refreshes {s : State} (h : s.rfcnt = 0#8) : exec .polldm s = .next (refreshDigit s) := by
  simp [exec, execPolldm, (expired_iff _).2 h]

/-- All that a commit does (R119). -/
theorem commitSnapshot_eq (v : Byte) (s : State) :
    commitSnapshot v s = { s with
      dbstate := v, dbcnt := s.cfg.debounceWindow,
      ind := (s.ind &&& ~~~s.cfg.buttonMask) ||| (v &&& s.cfg.buttonMask) } := rfl

theorem exec_polldb_commits {s : State} (h : s.dbcnt = 0#8) (hd : snapshot s ≠ s.dbstate) :
    exec .polldb s = .next (commitSnapshot (snapshot s) s) := by
  simp [exec, execPolldb, (expired_iff _).2 h, (differs_iff _ _).2 hd]

theorem exec_polldb_waits {s : State} (h : s.dbcnt ≠ 0#8 ∨ snapshot s = s.dbstate) :
    exec .polldb s = .next s := by
  rcases h with h | h
  · simp [exec, execPolldb, (expired_false_iff _).2 h]
  · simp [exec, execPolldb, h, differs]

/-- Every operation answers a next state. -/
theorem exec_eq_next (i : Instr) (s : State) : exec i s = .next (perform i s) := by
  cases i <;> rfl

theorem perform_nop (s : State) : perform .nop s = s := rfl

theorem perform_tick (s : State) :
    perform .tick s = { s with dbcnt := satDec s.dbcnt, rfcnt := satDec s.rfcnt } := rfl

theorem perform_hbtick (s : State) : perform .hbtick s = { s with hb := !s.hb } := rfl

theorem perform_setdig (p : Position) (n : Int) (s : State) :
    perform (.setdig p n) s = digitWrite p (encodeNumeral s.cfg n) s := rfl

theorem perform_polldm (s : State) : perform .polldm s = if s.rfcnt = 0#8 then refreshDigit s else s := by
  by_cases h : s.rfcnt = 0#8
  · rw [if_pos h, perform, exec_polldm_refreshes h]; rfl
  · rw [if_neg h, perform, exec_polldm_waits h]; rfl

theorem perform_polldb (s : State) :
    perform .polldb s =
      if s.dbcnt = 0#8 ∧ snapshot s ≠ s.dbstate then commitSnapshot (snapshot s) s else s := by
  by_cases h : s.dbcnt = 0#8 ∧ snapshot s ≠ s.dbstate
  · rw [if_pos h, perform, exec_polldb_commits h.1 h.2]; rfl
  · rw [if_neg h, perform, exec_polldb_waits]
    · rfl
    · by_cases h0 : s.dbcnt = 0#8
      · exact .inr (by by_contra hd; exact h ⟨h0, hd⟩)
      · exact .inl h0

/-- What an operation can do, said once: nothing, or one of the five effects under its condition. -/
theorem perform_cases (i : Instr) (s : State) :
    perform i s = s ∨
    (i = .tick ∧ perform i s = { s with dbcnt := satDec s.dbcnt, rfcnt := satDec s.rfcnt }) ∨
    (i = .hbtick ∧ perform i s = { s with hb := !s.hb }) ∨
    (i = .polldm ∧ s.rfcnt = 0#8 ∧ perform i s = refreshDigit s) ∨
    (i = .polldb ∧ s.dbcnt = 0#8 ∧ snapshot s ≠ s.dbstate ∧ perform i s = commitSnapshot (snapshot s) s) ∨
    (∃ p n, i = .setdig p n ∧ perform i s = digitWrite p (encodeNumeral s.cfg n) s) := by
  cases i with
  | nop => exact .inl rfl
  | tick => exact .inr (.inl ⟨rfl, rfl⟩)
  | hbtick => exact .inr (.inr (.inl ⟨rfl, rfl⟩))
  | polldm =>
    by_cases h : s.rfcnt = 0#8
    · exact .inr (.inr (.inr (.inl ⟨rfl, h, by rw [perform, exec_polldm_refreshes h]; rfl⟩)))
    · exact .inl (by rw [perform, exec_polldm_waits h]; rfl)
  | polldb =>
    by_cases h : s.dbcnt = 0#8 ∧ snapshot s ≠ s.dbstate
    · exact .inr (.inr (.inr (.inr (.inl ⟨rfl, h.1, h.2, by rw [perform, exec_polldb_commits h.1 h.2]; rfl⟩))))
    · have h' : s.dbcnt ≠ 0#8 ∨ snapshot s = s.dbstate := by
        by_cases h0 : s.dbcnt = 0#8
        · exact .inr (by by_contra hd; exact h ⟨h0, hd⟩)
        · exact .inl h0
      exact .inl (by rw [perform, exec_polldb_waits h']; rfl)
  | setdig p n => exact .inr (.inr (.inr (.inr (.inr ⟨p, n, rfl, rfl⟩))))

/-- No operation reads or writes what the outside will present. -/
theorem perform_setInputs (i : Instr) (s : State) (l : List PortInput) :
    perform i { s with inputs := l } = { perform i s with inputs := l } := by
  cases i with
  | nop => rfl
  | tick => rfl
  | hbtick => rfl
  | polldm =>
    simp only [perform_polldm]
    by_cases h : s.rfcnt = 0#8 <;> simp [h, refreshDigit_eq, digitRead, selectRead]
  | polldb =>
    simp only [perform_polldb, snapshot, samplePort]
    by_cases h : s.dbcnt = 0#8 ∧ s.btnIn &&& s.cfg.buttonMask ≠ s.dbstate
    · simp [h.1, h.2, commitSnapshot_eq]
    · simp only [h, if_false]
  | setdig p n => rfl

@[simp] theorem performOption_none (s : State) : performOption none s = s := rfl

@[simp] theorem performOption_some (i : Instr) (s : State) : performOption (some i) s = perform i s := rfl

/-- A presentation performs its reset, its operation, or nothing. -/
theorem performPort_eq (p : PortInput) (s : State) :
    performPort p s = .next
      (if p.rst then resetBlock s else performOption (portOp p) s) := by
  unfold performPort portOp performWord
  cases p.rst <;> cases p.evValid <;> simp [performOption]
  cases decode p.ev <;> simp [ignoreReserved, exec_eq_next]

theorem step_nil {s : State} (h : s.inputs = []) : step s = .next s := by simp [step, h]

theorem step_cons {s : State} {p : PortInput} {rest : List PortInput} (h : s.inputs = p :: rest) :
    step s = performPort p (latchPort p rest s) := by simp [step, h]

/-- All that feeding one presentation does. -/
theorem feedPort_eq (p : PortInput) (s : State) :
    feedPort p s =
      (if p.rst then resetBlock { s with btnIn := p.btn }
       else performOption (portOp p) { s with btnIn := p.btn }) := by
  rw [feedPort, performPort_eq]; rfl

theorem feedPort_setInputs (p : PortInput) (s : State) (l : List PortInput) :
    feedPort p { s with inputs := l } = { feedPort p s with inputs := l } := by
  simp only [feedPort_eq]
  by_cases h : p.rst
  · simp [h, resetBlock]
  · simp only [h, Bool.false_eq_true, if_false]
    cases portOp p with
    | none => rfl
    | some i => exact perform_setInputs i { s with btnIn := p.btn } l

/-- A step is the feeding of its first presentation. -/
theorem step_eq_feedPort {s : State} {p : PortInput} {rest : List PortInput} (h : s.inputs = p :: rest) :
    step s = .next { feedPort p s with inputs := rest } := by
  rw [step_cons h, performPort_eq, ← feedPort_setInputs, feedPort_eq]
  rfl

theorem feed_nil (s : State) : feed [] s = s := rfl

theorem feed_cons (p : PortInput) (ps : List PortInput) (s : State) :
    feed (p :: ps) s = feed ps (feedPort p s) := rfl

theorem feed_append (ps qs : List PortInput) (s : State) : feed (ps ++ qs) s = feed qs (feed ps s) := by
  simp [feed]

end Sys2Proof.Machine
end

