-- ==== Sys2Proof/Laws/PerInstr.lean ====
section
/-! SUPPORT. Laws/PerInstr.lean: facts about every operation as syntax, one lemma per constructor. -/

namespace Sys2Proof.Laws.WordHitsItsRow

/-- The word of an operation, well formed or not, lies in the row of the opcode map that bears its mnemonic, and in no
other (R72). -/
def Statement (i : Instr) : Prop :=
  (opTable.filter fun r => r.hits (encode i)).map OpRow.mnemonic = [i.mnemonic]

theorem nop : Statement .nop := by unfold Statement; decide

theorem tick : Statement .tick := by unfold Statement; decide

theorem hbtick : Statement .hbtick := by unfold Statement; decide

theorem polldm : Statement .polldm := by unfold Statement; decide

theorem polldb : Statement .polldb := by unfold Statement; decide

/-- The fields of a SETDIG word lie below its row's mask. -/
theorem encodeD_masked (pos : Position) (v : BitVec 8) :
    (0x5000#16 ||| (BitVec.ofNat 16 pos.val <<< 8) ||| v.setWidth 16) &&& 0xFC00#16 = 0x5000#16 := by
  have hv : v.setWidth 16 &&& 0xFC00#16 = 0#16 := by
    ext i hi
    have : v.getLsbD i = true → i < 8 := fun h => BitVec.lt_of_getLsbD h
    interval_cases i <;> simp_all
  rw [BitVec.and_or_distrib_right, hv, BitVec.or_zero]
  revert pos; decide

theorem setdig (pos : Position) (n : Int) : Statement (.setdig pos n) := by
  have h := encodeD_masked pos (BitVec.ofInt 8 n)
  have h' : encode (.setdig pos n) &&& 0xFC00#16 = 0x5000#16 := h
  have hne : ∀ c : EventWord, c &&& 0xFC00#16 ≠ 0x5000#16 → encode (.setdig pos n) ≠ c :=
    fun c hc e => hc (e ▸ h')
  have hm : ∀ w : EventWord, w &&& 0xFFFF#16 = w := fun w => BitVec.and_allOnes
  simp [Statement, opTable, OpRow.hits, h', hm, Instr.mnemonic, hne 0x0000#16 (by decide), hne 0x1000#16 (by decide),
    hne 0x2000#16 (by decide), hne 0x3000#16 (by decide), hne 0x4000#16 (by decide)]

end Sys2Proof.Laws.WordHitsItsRow
end

