-- ==== Sys2Proof/Tests/Slice0.lean ====
section
/-! SUPPORT. Tests/Slice0.lean: the model's own tests and the witnesses of the statements' hypotheses. Expected values
are those of 95_test_vectors.md (the T and S numbers) under its configuration CFG-T, or counted by hand from a rule. -/

namespace Sys2Proof.Tests

open Sys2Proof Sys2Proof.Machine

/-- CFG-T of 95_test_vectors.md; its tables are G1 and G2 of 93_implementation_defined.md. -/
def cfgT : Config where
  buttonMask := 0x0E
  debounceWindow := 50
  refreshInterval := 5
  numeralTable := #v[0xC0, 0xF9, 0xA4, 0xB0, 0x99, 0x92, 0x82, 0xF8, 0x80, 0x90]
  selectTable := #v[0xF1, 0xF2, 0xF4, 0xF8]
  buttonMask_pos := by decide
  debounceWindow_pos := by decide
  refreshInterval_pos := by decide

/-- The reset state R0 of CFG-T. -/
def r0 : State := State.resetOf cfgT

/-- The next state of an outcome, if it is one. -/
def nextOf (o : Host.Outcome State Fault Refusal) : Option State :=
  match o with
  | .next t => some t
  | .fault _ => none
  | .refused _ => none

/-- A presentation of an event word with a level on BTN_IN. -/
def ev (w : EventWord) (btn : Byte) : PortInput := ⟨false, true, w, btn⟩

/-! ## WellFormed: the one check, from both sides -/

theorem test_numeral_above_field_refused : (Instr.setdig 2 128).wellFormed = false := by decide

theorem test_numeral_below_field_refused : (Instr.setdig 2 (-129)).wellFormed = false := by decide

theorem test_numeral_ends_accepted :
    (Instr.setdig 2 127).wellFormed = true ∧ (Instr.setdig 2 (-128)).wellFormed = true := by decide

/-! ## Decode: words written out from R72's table (T50 to T60) -/

theorem test_decode_nop : decode 0b0000_0000_0000_0000#16 = .ok .nop := by decide

theorem test_decode_tick : decode 0b0001_0000_0000_0000#16 = .ok .tick := by decide

theorem test_decode_hbtick : decode 0b0010_0000_0000_0000#16 = .ok .hbtick := by decide

theorem test_decode_polldm : decode 0b0011_0000_0000_0000#16 = .ok .polldm := by decide

theorem test_decode_polldb : decode 0b0100_0000_0000_0000#16 = .ok .polldb := by decide

/-- T55, T56, T34, T35. -/
theorem test_decode_setdig :
    decode 0b0101_0010_0000_0111#16 = .ok (.setdig 2 7) ∧ decode 0x53FF#16 = .ok (.setdig 3 (-1)) ∧
    decode 0x517F#16 = .ok (.setdig 1 127) ∧ decode 0x5180#16 = .ok (.setdig 1 (-128)) := by decide

/-- T57 to T60. -/
theorem test_decode_reserved :
    decode 0x1001#16 = .error (.nonZeroOperand 1 1) ∧ decode 0x5407#16 = .error (.nonZeroRsv 1) ∧
    decode 0x6000#16 = .error (.reservedOp 6) ∧ decode 0xFFFF#16 = .error (.reservedOp 15) ∧
    decode 0x0100#16 = .error (.nonZeroOperand 0 0x100) := by decide

/-- T30, T36. -/
theorem test_encode_setdig : encode (.setdig 1 0) = 0x5100#16 ∧ encode (.setdig 1 (-1)) = 0x51FF#16 := by decide

/-- Every row of the table runs as the first operation after reset, whatever the build. -/
theorem test_rows_run_first_after_reset :
    [0x0000, 0x1000, 0x2000, 0x3000, 0x4000, 0x5207].all (fun w =>
      (nextOf (step (State.reset.withFetchWord 16 w))).isSome) = true := by rfl

theorem test_table_word : decodeTableWord 16 0x5207 = some (.setdig 2 7) ∧ decodeTableWord 16 0x5407 = none := by decide

/-! ## The operations -/

/-- T70: from R0, NOP changes nothing. -/
theorem test_nop : nextOf (exec .nop r0) = some r0 := by decide

/-- T4: the top of the range, and 1 to 0. -/
theorem test_tick_top_and_one :
    nextOf (exec .tick { r0 with dbcnt := 255, rfcnt := 1 }) = some { r0 with dbcnt := 254, rfcnt := 0 } := by decide

/-- T5: independence, and saturation. -/
theorem test_tick_independent :
    nextOf (exec .tick { r0 with rfcnt := 7 }) = some { r0 with rfcnt := 6 } := by decide

/-- T10. -/
theorem test_hbtick_sets : nextOf (exec .hbtick r0) = some { r0 with hb := true } := by decide

/-- T11. -/
theorem test_hbtick_clears : nextOf (exec .hbtick { r0 with hb := true }) = some r0 := by decide

/-- T22: the commit masks the sample and keeps the unrelated indicator bits. -/
theorem test_polldb_commit :
    nextOf (exec .polldb { r0 with ind := 0xA0, btnIn := 0xF3 }) =
      some { r0 with dbcnt := 50, dbstate := 0x02, ind := 0xA2, btnIn := 0xF3 } := by decide

/-- T25: bits go both ways in one commit. -/
theorem test_polldb_both_ways :
    nextOf (exec .polldb { r0 with dbstate := 0x0A, ind := 0xAA, btnIn := 0x04 }) =
      some { r0 with dbcnt := 50, dbstate := 0x04, ind := 0xA4, btnIn := 0x04 } := by decide

/-- The OutputStage vectors of section 2.3. -/
theorem test_output_stage :
    (outputStage 0x0A { r0 with ind := 0xA4 }).ind = 0xAA ∧ (outputStage 0x00 { r0 with ind := 0xFF }).ind = 0xF1 ∧
    (outputStage 0x0E r0).ind = 0x0E := by decide

/-- T42 without its records: position 2 is refreshed. -/
theorem test_polldm_levels :
    nextOf (exec .polldm { r0 with adi := 2, digbuf := #v[0xFF, 0xFF, 0xF8, 0xFF] }) =
      some { r0 with
        adi := 3, rfcnt := 5, digbuf := #v[0xFF, 0xFF, 0xF8, 0xFF], dtrace := frameRecords 0xF8 0xF4 } := by decide

/-- T43: ADI wraps from 3 to 0. -/
theorem test_polldm_wraps :
    nextOf (exec .polldm { r0 with adi := 3, digbuf := #v[0xFF, 0xFF, 0xFF, 0x90] }) =
      some { r0 with
        adi := 0, rfcnt := 5, digbuf := #v[0xFF, 0xFF, 0xFF, 0x90], dtrace := frameRecords 0x90 0xF8 } := by decide

/-- T43: the payload is 0x90F8, first bit first. -/
theorem test_payload :
    payloadBits 0x90 0xF8 =
      [true, false, false, true, false, false, false, false, true, true, true, true, true, false, false, false] ∧
    payloadWord 0x90 0xF8 = 0x90F8 := by decide

/-- R82: only rising edges of SCK under CS_N = 0 are received. -/
theorem test_receiver :
    frames [⟨.sck, true⟩, ⟨.sck, false⟩, ⟨.csN, false⟩, ⟨.sdo, true⟩, ⟨.sck, true⟩, ⟨.sck, true⟩, ⟨.sck, false⟩,
      ⟨.sdo, false⟩, ⟨.sck, true⟩, ⟨.csN, true⟩] = [[true, false]] := by decide

/-- The first 13 records of T43. -/
theorem test_frame_starts :
    (frameRecords 0x90 0xF8).take 13 =
      [⟨.csN, false⟩, ⟨.sdo, true⟩, ⟨.sck, true⟩, ⟨.sck, false⟩, ⟨.sdo, false⟩, ⟨.sck, true⟩, ⟨.sck, false⟩,
       ⟨.sdo, false⟩, ⟨.sck, true⟩, ⟨.sck, false⟩, ⟨.sdo, true⟩, ⟨.sck, true⟩, ⟨.sck, false⟩] := by decide

/-- T37: the position field, and the other entries. -/
theorem test_setdig_position :
    nextOf (exec (.setdig 3 4) r0) = some { r0 with digbuf := #v[0xFF, 0xFF, 0xFF, 0x99] } := by decide

/-- T30, T32, T33, T35, T36: both ends of the range and beyond. -/
theorem test_encode_numeral :
    encodeNumeral cfgT 0 = 0xC0 ∧ encodeNumeral cfgT 9 = 0x90 ∧ encodeNumeral cfgT 10 = 0xFF ∧
    encodeNumeral cfgT (-128) = 0xFF ∧ encodeNumeral cfgT (-1) = 0xFF := by decide

/-! ## The event port and scripts -/

/-- R185: RST discards the event word presented with it. -/
theorem test_reset_wins :
    nextOf (step { r0 with dbcnt := 9, hb := true, inputs := [⟨true, true, 0x2000, 0x02⟩] }) =
      some { r0 with btnIn := 0x02 } := by decide

/-- T57: a reserved word is ignored by the hardware. -/
theorem test_reserved_ignored :
    nextOf (step { r0 with dbcnt := 9, inputs := [ev 0x1001 0] }) = some { r0 with dbcnt := 9 } := by decide

/-- R77: operands, a comment, a negative numeral and a raw field. -/
theorem test_read_setdig :
    readLine ['S', 'E', 'T', 'D', 'I', 'G', ' ', '3', ',', ' ', '-', '1', ' ', ';', ' ', 'x'] =
      some (some (.op (.setdig 3 (-1)))) ∧
    readLine ['S', 'E', 'T', 'D', 'I', 'G', ' ', '2', ',', '0', 'x', 'F', 'F'] = some (some (.op (.setdig 2 (-1)))) ∧
    readLine ['S', 'E', 'T', 'D', 'I', 'G', ' ', '4', ',', '0'] = none := by decide

/-- R79. -/
theorem test_read_directives :
    readLine ['I', 'N', ' ', '0', 'x', '0', 'E'] = some (some (.input 0x0E)) ∧
    readLine ['T', 'I', 'C', 'K', 'S', ' ', '4', '2'] = some (some (.ticks 42)) ∧
    readLine [' ', ';', 'a'] = some none := by decide

/-- R78, R79 (the start of P2): what is presented, the implicit reset first. -/
theorem test_present_script :
    presentScript [.input 0x02, .loop, .blankdig 1] =
      [⟨true, false, 0, 0⟩, ⟨false, false, 0, 0⟩, ⟨false, false, 0, 2⟩, ev 0x3000 2, ev 0x4000 2, ev 0x51FF 2] := by decide

/-! ## Witnesses: for each statement with hypotheses, a state and operands that meet them all -/

theorem witness_ResetOverridesTheEventWord :
    let p : PortInput := ⟨true, true, 0x2000, 0x02⟩
    { r0 with inputs := [p] }.inputs = p :: [] ∧ p.rst = true := by decide

theorem witness_FirstOperationsAfterReset : (0x08 : Byte) &&& cfgT.buttonMask ≠ 0 := by decide

theorem witness_SatDecNeverWraps : (∃ c : Byte, c = 0) ∧ ∃ c : Byte, c ≠ 0 := ⟨⟨0, rfl⟩, 1, by decide⟩

/-- T1, T3: each clause of the statement about TICK. -/
theorem witness_TickDecrementsEachNonZeroCounter :
    (r0.dbcnt = 0 ∧ r0.rfcnt = 0) ∧ { r0 with dbcnt := 50, rfcnt := 5 }.dbcnt ≠ 0 ∧
    { r0 with dbcnt := 50, rfcnt := 5 }.rfcnt ≠ 0 := by decide

theorem witness_DebounceCountdownIsExact :
    let ps := [ev 0x1000 0, ev 0x4000 2, ev 0x1000 2]
    NoReset ps ∧ countOp .tick ps < { r0 with dbcnt := 3 }.dbcnt.toNat ∧
    portOp (ev 0x1000 2) = some .tick ∧ (ev 0x1000 2).rst = false ∧
    countOp .tick ps + 1 = { r0 with dbcnt := 3 }.dbcnt.toNat := by decide

theorem witness_RefreshCountdownIsExact :
    let ps := [ev 0x1000 0, ev 0x3000 2, ev 0x1000 2]
    NoReset ps ∧ countOp .tick ps < { r0 with rfcnt := 3 }.rfcnt.toNat ∧
    portOp (ev 0x1000 2) = some .tick ∧ (ev 0x1000 2).rst = false ∧
    countOp .tick ps + 1 = { r0 with rfcnt := 3 }.rfcnt.toNat := by decide

theorem witness_HeartbeatCountsParity : NoReset [ev 0x2000 0] := by decide

theorem witness_PolldbDoesNothingInBlackout : { r0 with dbcnt := 1 }.dbcnt ≠ 0 := by decide

/-- T23: only unmonitored bits differ. -/
theorem witness_PolldbIdenticalChangesNothing :
    let s := { r0 with btnIn := 0xF1 }
    s.dbcnt = 0 ∧ s.btnIn &&& s.cfg.buttonMask = s.dbstate := by decide

/-- T24. -/
theorem witness_PolldbCommitsADifferingSample :
    let s := { r0 with btnIn := 0xFF }
    s.dbcnt = 0 ∧ s.btnIn &&& s.cfg.buttonMask ≠ s.dbstate := by decide

theorem witness_ComparatorSeesAnyMonitoredBit :
    r0.dbcnt = 0 ∧ r0.dbstate &&& ~~~r0.cfg.buttonMask = 0 := by decide

theorem witness_UnmonitoredBitsNeverInfluence :
    (0xF3 : Byte) &&& r0.cfg.buttonMask = 0x02 &&& r0.cfg.buttonMask := by decide

/-- Each clause: a reset, a commit from ARMED, the last TICK of a blackout. -/
theorem witness_DebouncePhasesChangeOnlySo :
    let a : PortInput := ⟨true, false, 0, 0⟩
    let b := ev 0x4000 2
    let c := ev 0x1000 0
    let s := { r0 with inputs := [a] }
    let u := { r0 with inputs := [b] }
    let v := { r0 with dbcnt := 1, inputs := [c] }
    (s.inputs = a :: [] ∧ a.rst = true ∧ (nextOf (step s)).isSome = true) ∧
    (u.inputs = b :: [] ∧ b.rst = false ∧ u.phase = .armed ∧ portOp b = some .polldb ∧
      (nextOf (step u)).any (fun t => t.phase == .blackout && t.dbstate != u.dbstate) = true) ∧
    (v.inputs = c :: [] ∧ c.rst = false ∧ v.phase = .blackout ∧ portOp c = some .tick ∧ v.dbcnt = 1 ∧
      (nextOf (step v)).any (fun t => t.phase == .armed) = true) := by decide

/-- A window of one tick: two commits with that tick between them. -/
theorem witness_CommitsAreAWindowApart :
    let s := { r0 with cfg := { cfgT with debounceWindow := 1, debounceWindow_pos := by decide } }
    let a := ev 0x4000 2
    let ps := [ev 0x1000 0]
    let b := ev 0x4000 0
    a.rst = false ∧ b.rst = false ∧ NoReset ps ∧ (feedPort a s).dbstate ≠ s.dbstate ∧
    (feedPort b (feed ps (feedPort a s))).dbstate ≠ (feed ps (feedPort a s)).dbstate := by decide

theorem witness_SamplesInBlackoutAreInvisible :
    let ps := [ev 0x4000 0x0E, ev 0x1000 0]
    let qs := [ev 0x4000 0x00, ev 0x1000 2]
    NoReset ps ∧ NoReset qs ∧ ps.map portOp = qs.map portOp ∧
    countOp .tick ps < { r0 with dbcnt := 2 }.dbcnt.toNat := by decide

theorem witness_FirstPollAfterTheWindowCommits :
    let s := { r0 with dbcnt := 2 }
    let qs := [ev 0x1000 0, ev 0x4000 2]
    let us := [ev 0x1000 2]
    let b := ev 0x4000 2
    NoReset qs ∧ NoReset us ∧ countOp .tick qs < s.dbcnt.toNat ∧ countOp .polldb us = 0 ∧
    s.dbcnt.toNat ≤ countOp .tick (qs ++ us) ∧ portOp b = some .polldb ∧
    b.btn &&& s.cfg.buttonMask ≠ s.dbstate := by decide

/-- The endless sequence POLLDM, POLLDB, TICK with a button held. -/
def endless (n : Nat) : PortInput :=
  if n % 3 = 0 then ev 0x3000 2 else if n % 3 = 1 then ev 0x4000 2 else ev 0x1000 2

theorem endless_cases (n : Nat) : endless n = ev 0x3000 2 ∨ endless n = ev 0x4000 2 ∨ endless n = ev 0x1000 2 := by
  unfold endless
  split
  · exact .inl rfl
  · split
    · exact .inr (.inl rfl)
    · exact .inr (.inr rfl)

theorem endless_often (k : Nat) (hk : k < 3) (n : Nat) : ∃ m, n ≤ m ∧ endless m = endless k := by
  refine ⟨3 * n + k, by omega, ?_⟩
  unfold endless
  rw [show (3 * n + k) % 3 = k % 3 by omega]

theorem often_of_word {i : Instr} {k : Nat} (hk : k < 3) (h : portOp (endless k) = some i) : InfinitelyOften i endless := by
  intro n
  obtain ⟨m, hm, he⟩ := endless_often k hk n
  exact ⟨m, hm, he ▸ h⟩

theorem witness_AStableInputIsCommittedInTheEnd :
    (∀ n, (endless n).rst = false) ∧ PollsFair endless ∧ InfinitelyOften .tick endless ∧
    ∀ n, 0 ≤ n → (endless n).btn &&& r0.cfg.buttonMask = 0x02 := by
  refine ⟨fun n => ?_, ⟨often_of_word (k := 0) (by decide) (by decide), often_of_word (k := 1) (by decide) (by decide)⟩,
    often_of_word (k := 2) (by decide) (by decide), fun n _ => ?_⟩
  all_goals rcases endless_cases n with h | h | h <;> rw [h] <;> decide

theorem witness_PolldmDoesNothingBeforeItsTime : { r0 with rfcnt := 3 }.rfcnt ≠ 0 := by decide

theorem witness_PolldmSendsOneFrameAndAdvances : { r0 with rfcnt := 1 }.rfcnt ≠ 0 ∧ r0.rfcnt = 0 := by decide

/-- R0 of CFG-T meets the invariant. -/
theorem r0_inv : r0.Inv where
  dbstate_masked := by decide
  ind_shows := by decide
  ind_unrelated := by decide
  dbcnt_le := by decide
  rfcnt_le := by decide
  digits_encoded := fun p => ⟨-1, by revert p; decide⟩
  csN_idle := rfl
  sck_idle := rfl
  levels_recorded := fun l => by cases l <;> decide
  frames_whole := by decide
  writes_whole := by decide
  adi_counts := by decide

theorem witness_TheReceiverGetsThePayload : r0.Inv ∧ r0.rfcnt = 0 := ⟨r0_inv, rfl⟩

/-- S3: two refreshes, at positions 3 and 0. -/
theorem witness_RefreshesVisitPositionsInOrder :
    let ps := [ev 0x3000 0] ++ List.replicate 5 (ev 0x1000 0) ++ [ev 0x3000 0]
    NoReset ps ∧ refreshed ps { r0 with adi := 3 } = [3, 0] := by decide

theorem witness_RefreshCadence : r0.rfcnt = 0 := by decide

/-- The clauses at the ends of their ranges. -/
theorem witness_SetdigStoresTheEncoding :
    ((0 : Int) = ((0 : Fin 10).val : Int) ∧ (9 : Int) = ((9 : Fin 10).val : Int)) ∧
    ((-1 : Int) < 0 ∨ 9 < (-1 : Int)) ∧ ((10 : Int) < 0 ∨ 9 < (10 : Int)) ∧ (0 : Position) ≠ 3 := by decide

theorem witness_TransmittedSegmentIsTheEncoding :
    (9 : Int) = ((9 : Fin 10).val : Int) ∧ ((10 : Int) < 0 ∨ 9 < (10 : Int)) ∧ r0.rfcnt = 0 := by decide

/-- S9 with one event between. -/
theorem witness_ADigitSetReachesTheWire :
    let s := { r0 with adi := 2 }
    let ps := [ev 0x2000 0]
    let u := digitWrite 2 0xF8 s
    NoReset ps ∧ (∀ p ∈ ps, ∀ m, portOp p ≠ some (.setdig 2 m)) ∧ exec (.setdig 2 7) s = .next u ∧
    (feed ps u).adi = 2 ∧ (feed ps u).rfcnt = 0 := by
  refine ⟨by decide, fun p hp m => ?_, rfl, by decide, by decide⟩
  rw [List.mem_singleton.1 hp, show portOp (ev 0x2000 0) = some .hbtick by decide]
  exact fun h => by cases h

theorem witness_StepRunsTheDecodedOperation :
    let p := ev 0x5207 0
    { r0 with inputs := [p] }.inputs = p :: [] ∧ p.rst = false ∧ p.evValid = true ∧
    decode p.ev = .ok (.setdig 2 7) := by decide

theorem witness_WithoutStrobeNothingIsPerformed :
    let p : PortInput := ⟨false, false, 0x1000, 2⟩
    r0.inputs = [] ∧ { r0 with inputs := [p] }.inputs = p :: [] ∧ p.rst = false ∧ p.evValid = false := by decide

theorem witness_ReservedWordsAreIgnored :
    let p := ev 0x5407 0
    { r0 with inputs := [p] }.inputs = p :: [] ∧ p.rst = false ∧ p.evValid = true ∧
    decode p.ev = .error (.nonZeroRsv 1) := by decide

theorem witness_APresentedWordRunsNext : decodeTableWord 16 0x4000 = some .polldb := by decide

theorem witness_TheBuildIsConstant : (nextOf (step { r0 with inputs := [ev 0x3000 0] })).isSome = true := by decide

theorem witness_DecodeOfEncodeIsTheOperation : (Instr.setdig 3 (-128)).WellFormed := by decide

theorem witness_EncodeOfDecodeIsTheWord : decode 0x5380#16 = .ok (.setdig 3 (-128)) := by decide

theorem witness_AScriptOperationIsPerformed :
    (Instr.setdig 0 127).WellFormed ∧
    { r0 with inputs := [present 2 (.setdig 0 127)] }.inputs = present 2 (.setdig 0 127) :: [] := by decide

/-- Of R81's count: clocks high all before clocks low are one rising edge, not two. -/
theorem test_rising_edges_are_counted_by_level :
    sckRisingEdges false [⟨.sck, true⟩, ⟨.sck, true⟩, ⟨.sck, false⟩, ⟨.sck, false⟩] = 1 := by decide

theorem witness_EveryStepKeepsTheInvariant : r0.Inv ∧ step r0 = .next r0 := ⟨r0_inv, rfl⟩

theorem witness_OperationsWriteOnlyTheirRow :
    exec .hbtick r0 = .next { r0 with hb := true } ∧ opWrites .hbtick .dbcnt = false ∧
    opWritesTrace .hbtick = false := ⟨rfl, by decide, by decide⟩

/-- The two states differ in elements HBTICK does not read, and in the input sample. -/
theorem witness_OperationsReadOnlyTheirRow :
    let s := r0
    let s' := { r0 with dbcnt := 9, adi := 2, btnIn := 0xFF }
    s.cfg = s'.cfg ∧ (Instr.hbtick = .polldb → s.btnIn = s'.btnIn) ∧ (∀ e : Elem, opReads .hbtick s e = true → e.Agree s s') ∧
    exec .hbtick s = .next { s with hb := true } ∧ exec .hbtick s' = .next { s' with hb := true } := by
  refine ⟨rfl, nofun, fun e h => ?_, rfl, rfl⟩
  have : e = .hb := by simpa [opReads] using h
  subst this
  rfl

theorem witness_EachContextMutatesItsSubset :
    (exec .hbtick r0 = .next { r0 with hb := true } ∧ opContext .hbtick = .interrupt) ∧
    exec .nop r0 = .next r0 ∧ opContext .nop = .main := ⟨⟨rfl, rfl⟩, rfl, rfl⟩

theorem witness_TheHandlersCommute :
    ((Instr.hbtick = .hbtick) ∧ Instr.nop = .nop) ∧ ∃ pos n, Instr.setdig 1 2 = .setdig pos n :=
  ⟨⟨rfl, rfl⟩, 1, 2, rfl⟩

/-- A TICK in the middle of a frame. -/
theorem witness_APreemptedPolldmIsAtomic :
    microsOf (((polldmMicros r0).take 20).map Slot.micro ++ [.handler .tick] ++ ((polldmMicros r0).drop 20).map Slot.micro) =
      polldmMicros r0 := by decide

/-- A TICK between the reload and the indicators. -/
theorem witness_APreemptedPolldbIsAtomic :
    let s := { r0 with btnIn := 2 }
    microsOf [.micro (.commit 2), .micro .reloadDebounce, .handler .tick, .micro (.output 2)] = polldbMicros s := by decide

end Sys2Proof.Tests
end

/-! ## The build's parameters (00_scope.md R6, 20_memory.md R64) -/

namespace Sys2Proof.Machine

@[simp] theorem refreshDigit_cfg (s : State) : (refreshDigit s).cfg = s.cfg := by rw [refreshDigit_eq]

@[simp] theorem commitSnapshot_cfg (v : Byte) (s : State) : (commitSnapshot v s).cfg = s.cfg := rfl

/-- Each of the effects an operation can have leaves the parameters alone. -/
@[simp] theorem perform_cfg (i : Instr) (s : State) : (perform i s).cfg = s.cfg := by
  obtain h | ⟨-, h⟩ | ⟨-, h⟩ | ⟨-, -, h⟩ | ⟨-, -, -, h⟩ | ⟨p, n, -, h⟩ := perform_cases i s
  · rw [h]
  · rw [h]
  · rw [h]
  · rw [h, refreshDigit_cfg]
  · rw [h, commitSnapshot_cfg]
  · rw [h, digitWrite_cfg]

@[simp] theorem performOption_cfg (o : Option Instr) (s : State) : (performOption o s).cfg = s.cfg := by
  cases o with
  | none => rfl
  | some i => exact perform_cfg i s

/-- Reset keeps the parameters too: it is the reset of the same build (R185). -/
@[simp] theorem feedPort_cfg (p : PortInput) (s : State) : (feedPort p s).cfg = s.cfg := by
  rw [feedPort_eq]
  split
  · exact resetBlock_cfg _
  · exact performOption_cfg _ _

/-- Settles O39: a step with nothing presented answers the same state, and any other feeds one presentation. -/
theorem theBuildIsConstant : Obligations.TheBuildIsConstant := by
  intro s t h
  cases hin : s.inputs with
  | nil =>
    rw [step_nil hin] at h
    cases h
    rfl
  | cons p rest =>
    rw [step_eq_feedPort hin] at h
    cases h
    exact feedPort_cfg p s

end Sys2Proof.Machine

/-! ## The ownership table (10_state.md R42) and the reset values (R43) -/

namespace Sys2Proof.Machine

/-! Agreement on an element -/

theorem Elem.Agree.refl (e : Elem) (s : State) : e.Agree s s := by
  cases e <;> rfl

/-! The masks of IND: what a commit does to each half (R150) -/

/-- Inside the mask a commit shows the pattern. -/
theorem commitSnapshot_ind_monitored (v : Byte) (s : State) :
    (commitSnapshot v s).ind &&& s.cfg.buttonMask = v &&& s.cfg.buttonMask := by
  rw [commitSnapshot_eq]
  simp [BitVec.and_or_distrib_right, BitVec.and_assoc]

/-- Outside the mask a commit keeps what IND showed. -/
theorem commitSnapshot_ind_unrelated (v : Byte) (s : State) :
    (commitSnapshot v s).ind &&& ~~~s.cfg.buttonMask = s.ind &&& ~~~s.cfg.buttonMask := by
  rw [commitSnapshot_eq]
  simp [BitVec.and_or_distrib_right, BitVec.and_assoc]

/-! Each effect keeps the elements outside its row's "writes" -/

theorem agree_refreshDigit (s : State) {e : Elem} (h : opWrites .polldm e = false) :
    e.Agree s (refreshDigit s) := by
  rw [refreshDigit_eq]
  cases e with
  | csN | sdo | sck | adi | rfcnt => cases h
  | dbcnt | dbstate | hb | indMonitored | indUnrelated | digit _ => rfl

theorem agree_commitSnapshot (v : Byte) (s : State) {e : Elem} (h : opWrites .polldb e = false) :
    e.Agree s (commitSnapshot v s) := by
  cases e with
  | dbstate | dbcnt | indMonitored => cases h
  | indUnrelated => exact (commitSnapshot_ind_unrelated v s).symm
  | rfcnt | adi | hb | sck | csN | sdo | digit _ => rfl

theorem agree_digitWrite (p : Position) (n : Int) (v : Byte) (s : State) {e : Elem}
    (h : opWrites (.setdig p n) e = false) : e.Agree s (digitWrite p v s) := by
  cases e with
  | digit q =>
    have hq : q ≠ p := by simpa [opWrites] using h
    exact (digitRead_digitWrite_other hq v s).symm
  | dbcnt | rfcnt | dbstate | adi | hb | indMonitored | indUnrelated | sck | csN | sdo => rfl

theorem agree_perform (i : Instr) (s : State) {e : Elem} (h : opWrites i e = false) :
    e.Agree s (perform i s) := by
  obtain hp | ⟨rfl, hp⟩ | ⟨rfl, hp⟩ | ⟨rfl, -, hp⟩ | ⟨rfl, -, -, hp⟩ | ⟨p, n, rfl, hp⟩ := perform_cases i s
  · rw [hp]
    exact .refl e s
  · rw [hp]
    cases e with
    | dbcnt | rfcnt => cases h
    | dbstate | adi | hb | indMonitored | indUnrelated | sck | csN | sdo | digit _ => rfl
  · rw [hp]
    cases e with
    | hb => cases h
    | dbcnt | rfcnt | dbstate | adi | indMonitored | indUnrelated | sck | csN | sdo | digit _ => rfl
  · rw [hp]
    exact agree_refreshDigit s h
  · rw [hp]
    exact agree_commitSnapshot _ s h
  · rw [hp]
    exact agree_digitWrite p n _ s h

/-! DTRACE and the model's own fields -/

theorem perform_dtrace {i : Instr} (h : opWritesTrace i = false) (s : State) :
    (perform i s).dtrace = s.dtrace := by
  obtain hp | ⟨-, hp⟩ | ⟨-, hp⟩ | ⟨rfl, -, hp⟩ | ⟨-, -, -, hp⟩ | ⟨p, n, -, hp⟩ := perform_cases i s
  · rw [hp]
  · rw [hp]
  · rw [hp]
  · cases h
  · rw [hp, commitSnapshot_eq]
  · rw [hp, digitWrite_dtrace]

@[simp] theorem perform_btnIn (i : Instr) (s : State) : (perform i s).btnIn = s.btnIn := by
  obtain hp | ⟨-, hp⟩ | ⟨-, hp⟩ | ⟨-, -, hp⟩ | ⟨-, -, -, hp⟩ | ⟨p, n, -, hp⟩ := perform_cases i s
  · rw [hp]
  · rw [hp]
  · rw [hp]
  · rw [hp, refreshDigit_eq]
  · rw [hp, commitSnapshot_eq]
  · rw [hp, digitWrite_btnIn]

/-- No operation takes from the list of presentations: only a step does. -/
@[simp] theorem perform_inputs (i : Instr) (s : State) : (perform i s).inputs = s.inputs := by
  have h : perform i s = { perform i s with inputs := s.inputs } := perform_setInputs i s s.inputs
  rw [h]

/-- Settles O48: every operation answers the state it performs, and each effect keeps what its row does not name. -/
theorem operationsWriteOnlyTheirRow : Obligations.OperationsWriteOnlyTheirRow := by
  intro i s t h
  rw [exec_eq_next] at h
  cases h
  exact ⟨fun _ he => agree_perform i s he, fun hd => perform_dtrace hd s, perform_cfg i s, perform_btnIn i s,
    perform_inputs i s⟩

/-! What an operation writes depends on its row's "reads" alone -/

/-- Two states that agree on all that an operation reads (R42): one build, the elements of the row, and for POLLDB the
input sample. -/
structure AgreeOnReads (i : Instr) (s s' : State) : Prop where
  cfg_eq : s.cfg = s'.cfg
  sample_eq : i = .polldb → s.btnIn = s'.btnIn
  elem : ∀ e : Elem, opReads i s e = true → e.Agree s s'

/-- The two states refresh the same byte pair. -/
theorem AgreeOnReads.frame_eq {s s' : State} (h : AgreeOnReads .polldm s s') :
    digitRead s s.adi = digitRead s' s'.adi ∧ selectRead s s.adi = selectRead s' s'.adi := by
  have hadi : s.adi = s'.adi := h.elem .adi rfl
  have hdigit : digitRead s s.adi = digitRead s' s.adi := h.elem (.digit s.adi) (by simp [opReads])
  exact ⟨by rw [hdigit, hadi], by rw [selectRead, selectRead, hadi, h.cfg_eq]⟩

/-- The guard of POLLDM (R131) falls the same way in both states. -/
theorem AgreeOnReads.polldm_cases {s s' : State} (h : AgreeOnReads .polldm s s') :
    (perform .polldm s = s ∧ perform .polldm s' = s') ∨
      (perform .polldm s = refreshDigit s ∧ perform .polldm s' = refreshDigit s') := by
  have hrf : s.rfcnt = s'.rfcnt := h.elem .rfcnt rfl
  simp only [perform_polldm, ← hrf]
  split
  · exact .inr ⟨rfl, rfl⟩
  · exact .inl ⟨rfl, rfl⟩

theorem AgreeOnReads.snapshot_eq {s s' : State} (h : AgreeOnReads .polldb s s') : snapshot s = snapshot s' := by
  rw [snapshot, snapshot, samplePort, samplePort, h.sample_eq rfl, h.cfg_eq]

/-- The guard and the comparator of POLLDB (R116, R118) fall the same way in both states. -/
theorem AgreeOnReads.polldb_cases {s s' : State} (h : AgreeOnReads .polldb s s') :
    (perform .polldb s = s ∧ perform .polldb s' = s') ∨
      (perform .polldb s = commitSnapshot (snapshot s) s ∧ perform .polldb s' = commitSnapshot (snapshot s) s') := by
  have hdb : s.dbcnt = s'.dbcnt := h.elem .dbcnt rfl
  have hst : s.dbstate = s'.dbstate := h.elem .dbstate rfl
  simp only [perform_polldb, ← hdb, ← hst, ← h.snapshot_eq]
  split
  · exact .inr ⟨rfl, rfl⟩
  · exact .inl ⟨rfl, rfl⟩

/-- Two refreshes leave equal what a refresh writes. -/
theorem AgreeOnReads.refreshDigit_agree {s s' : State} (h : AgreeOnReads .polldm s s') {e : Elem}
    (he : opWrites .polldm e = true) : e.Agree (refreshDigit s) (refreshDigit s') := by
  have hadi : s.adi = s'.adi := h.elem .adi rfl
  rw [refreshDigit_eq, refreshDigit_eq]
  cases e with
  | csN | sck => rfl
  | sdo => exact congrArg (BitVec.getLsbD · 0) h.frame_eq.2
  | adi => exact congrArg (· + 1) hadi
  | rfcnt => exact congrArg Config.refreshInterval h.cfg_eq
  | dbcnt | dbstate | hb | indMonitored | indUnrelated | digit _ => cases he

/-- Two commits of one pattern leave equal what a commit writes. -/
theorem commitSnapshot_agree (v : Byte) {s s' : State} (hcfg : s.cfg = s'.cfg) {e : Elem}
    (he : opWrites .polldb e = true) : e.Agree (commitSnapshot v s) (commitSnapshot v s') := by
  cases e with
  | dbstate => rfl
  | dbcnt => exact congrArg Config.debounceWindow hcfg
  | indMonitored =>
    calc (commitSnapshot v s).ind &&& s.cfg.buttonMask
        = v &&& s.cfg.buttonMask := commitSnapshot_ind_monitored v s
      _ = v &&& s'.cfg.buttonMask := by rw [hcfg]
      _ = (commitSnapshot v s').ind &&& s'.cfg.buttonMask := (commitSnapshot_ind_monitored v s').symm
  | rfcnt | adi | hb | indUnrelated | sck | csN | sdo | digit _ => cases he

/-- An operation leaves both states as they are, or leaves them equal in each element it writes. -/
theorem AgreeOnReads.perform_agree {i : Instr} {s s' : State} (h : AgreeOnReads i s s') :
    (perform i s = s ∧ perform i s' = s') ∨
      ∀ e : Elem, opWrites i e = true → e.Agree (perform i s) (perform i s') := by
  cases i with
  | nop => exact .inl ⟨rfl, rfl⟩
  | tick =>
    refine .inr fun e he => ?_
    cases e with
    | dbcnt => exact congrArg satDec (h.elem .dbcnt rfl)
    | rfcnt => exact congrArg satDec (h.elem .rfcnt rfl)
    | dbstate | adi | hb | indMonitored | indUnrelated | sck | csN | sdo | digit _ => cases he
  | hbtick =>
    refine .inr fun e he => ?_
    obtain rfl : e = .hb := by simpa [opWrites] using he
    exact congrArg not (h.elem .hb rfl)
  | polldm =>
    obtain hwait | ⟨hs, hs'⟩ := h.polldm_cases
    · exact .inl hwait
    · rw [hs, hs']
      exact .inr fun _ he => h.refreshDigit_agree he
  | polldb =>
    obtain hwait | ⟨hs, hs'⟩ := h.polldb_cases
    · exact .inl hwait
    · rw [hs, hs']
      exact .inr fun _ he => commitSnapshot_agree _ h.cfg_eq he
  | setdig p n =>
    refine .inr fun e he => ?_
    obtain rfl : e = .digit p := by simpa [opWrites] using he
    rw [perform_setdig, perform_setdig, h.cfg_eq]
    exact (digitRead_digitWrite_same p _ s).trans (digitRead_digitWrite_same p _ s').symm

/-- Both runs add the same pin writes: none, or the frame of the byte pair both read. -/
theorem AgreeOnReads.perform_records {i : Instr} {s s' : State} (h : AgreeOnReads i s s') :
    ∃ d, (perform i s).dtrace = s.dtrace ++ d ∧ (perform i s').dtrace = s'.dtrace ++ d := by
  cases i with
  | polldm =>
    obtain ⟨hs, hs'⟩ | ⟨hs, hs'⟩ := h.polldm_cases
    · exact ⟨[], by simp [hs], by simp [hs']⟩
    · obtain ⟨hseg, hsel⟩ := h.frame_eq
      exact ⟨frameRecords (digitRead s s.adi) (selectRead s s.adi), by rw [hs, refreshDigit_eq],
        by rw [hs', refreshDigit_eq, hseg, hsel]⟩
  | nop | tick | hbtick | polldb | setdig _ _ =>
    exact ⟨[], by rw [perform_dtrace rfl, List.append_nil], by rw [perform_dtrace rfl, List.append_nil]⟩

/-- Settles O49: an element the operation does not write is kept in both runs, and one it writes is a function of what
the row reads. -/
theorem operationsReadOnlyTheirRow : Obligations.OperationsReadOnlyTheirRow := by
  intro i s s' t t' hcfg hbtn hr ht ht'
  have h : AgreeOnReads i s s' := ⟨hcfg, hbtn, hr⟩
  rw [exec_eq_next] at ht ht'
  cases ht
  cases ht'
  refine ⟨fun e => ?_, h.perform_records⟩
  cases hw : opWrites i e with
  | false => exact .inr ⟨agree_perform i s hw, agree_perform i s' hw⟩
  | true =>
    obtain ⟨hs, hs'⟩ | heq := h.perform_agree
    · rw [hs, hs']
      exact .inr ⟨.refl e s, .refl e s'⟩
    · exact .inl (heq e hw)

/-! The values after reset -/

/-- IND after reset, bit by bit (D7). -/
theorem resetOf_ind_getLsbD (c : Config) {i : Nat} (hi : i < 8) :
    (State.resetOf c).ind.getLsbD i = (c.indInit.getLsbD i && !c.buttonMask.getLsbD i) := by
  simp [State.resetOf, hi]

/-- Every digit is blank after reset (D8). -/
theorem digitRead_resetOf (c : Config) (p : Position) : digitRead (State.resetOf c) p = c.blank := by
  simp [digitRead, State.resetOf, Vector.get_eq_getElem]

/-- Settles O1: all but IND and the digits stand in the definition of the reset state. -/
theorem resetPutsEveryElementAtItsValue : Obligations.ResetPutsEveryElementAtItsValue :=
  ⟨rfl, fun c => ⟨rfl, rfl, rfl, rfl, rfl, fun _ hi => resetOf_ind_getLsbD c hi, rfl, rfl, rfl, digitRead_resetOf c,
    rfl, rfl⟩⟩

end Sys2Proof.Machine

/-! ## Sequential consistency and the operations that commute (20_memory.md R59, R61) -/

namespace Sys2Proof.Machine

/-! A run and its presentations -/

/-- A run of any machine goes on from the state its first step answers. -/
theorem run_succ_of_step {M : Host.Core} {s t : M.State} (k : Nat) (h : M.step s = .next t) :
    M.run (k + 1) s = M.run k t := by
  rw [Host.Core.run, h]

/-- A step takes the head of the list and leaves the tail to come; what it performs does not depend on the list. -/
theorem step_setInputs_cons (p : PortInput) (rest : List PortInput) (s : State) :
    step { s with inputs := p :: rest } = .next { feedPort p s with inputs := rest } := by
  rw [step_eq_feedPort rfl, feedPort_setInputs]

/-- Settles O38, by induction on the presentations: one step of the run feeds the first of them. -/
theorem aRunIsItsPresentationsInOrder : Obligations.ARunIsItsPresentationsInOrder := by
  intro s ps rest
  induction ps generalizing s with
  | nil => rfl
  | cons p ps ih =>
    rw [feed_cons, ← ih (feedPort p s)]
    exact run_succ_of_step (M := Sys2Proof.core) ps.length (step_setInputs_cons p (ps ++ rest) s)

/-! Two operations in either order -/

/-- Every operation completes, so both orders end in one state when the performed effects commute. -/
theorem exec_orders_meet {i j : Instr} {s : State} (h : perform j (perform i s) = perform i (perform j s)) :
    ∃ a b t, exec i s = .next a ∧ exec j a = .next t ∧ exec j s = .next b ∧ exec i b = .next t :=
  ⟨perform i s, perform j s, perform j (perform i s), exec_eq_next i s, exec_eq_next j _, exec_eq_next j s,
    h ▸ exec_eq_next i _⟩

/-! The polls: each keeps what the guard of the other reads, and their effects write apart -/

@[simp] theorem refreshDigit_dbcnt (s : State) : (refreshDigit s).dbcnt = s.dbcnt := by rw [refreshDigit_eq]

@[simp] theorem refreshDigit_dbstate (s : State) : (refreshDigit s).dbstate = s.dbstate := by rw [refreshDigit_eq]

@[simp] theorem snapshot_refreshDigit (s : State) : snapshot (refreshDigit s) = snapshot s := by
  rw [refreshDigit_eq]
  rfl

theorem refreshDigit_commitSnapshot (v : Byte) (s : State) :
    refreshDigit (commitSnapshot v s) = commitSnapshot v (refreshDigit s) := by
  rw [refreshDigit_eq, refreshDigit_eq]
  rfl

/-- POLLDB falls the same way after a refresh as before it. -/
theorem perform_polldb_refreshDigit (s : State) :
    perform .polldb (refreshDigit s) = refreshDigit (perform .polldb s) := by
  rw [perform_polldb, perform_polldb, refreshDigit_dbcnt, refreshDigit_dbstate, snapshot_refreshDigit]
  split
  · exact (refreshDigit_commitSnapshot _ s).symm
  · rfl

theorem perform_polldb_rfcnt (s : State) : (perform .polldb s).rfcnt = s.rfcnt :=
  (agree_perform .polldb s (e := .rfcnt) rfl).symm

theorem perform_polldb_polldm (s : State) :
    perform .polldb (perform .polldm s) = perform .polldm (perform .polldb s) := by
  rw [perform_polldm, perform_polldm, perform_polldb_rfcnt]
  split
  · exact perform_polldb_refreshDigit s
  · rfl

/-- Settles O51: the guards fall the same way in both orders, and the refresh and the commit commute. -/
theorem thePollsCommute : Obligations.ThePollsCommute := fun s => exec_orders_meet (perform_polldb_polldm s)

/-! The handlers -/

/-- HBTICK alone writes HB (R42). -/
theorem perform_hb {i : Instr} (h : i ≠ .hbtick) (s : State) : (perform i s).hb = s.hb := by
  have hw : opWrites i .hb = false := by
    cases i with
    | hbtick => exact absurd rfl h
    | nop | tick | polldm | polldb | setdig _ _ => rfl
  exact (agree_perform i s hw).symm

/-- No operation but HBTICK reads or writes HB. -/
theorem perform_setHb {i : Instr} (h : i ≠ .hbtick) (s : State) (b : Bool) :
    perform i { s with hb := b } = { perform i s with hb := b } := by
  cases i with
  | hbtick => exact absurd rfl h
  | nop | tick | setdig _ _ => rfl
  | polldm =>
    simp only [perform_polldm]
    split
    · rw [refreshDigit_eq, refreshDigit_eq]
      rfl
    · rfl
  | polldb =>
    have hsnap : snapshot { s with hb := b } = snapshot s := rfl
    simp only [perform_polldb, hsnap]
    split <;> rfl

theorem perform_hbtick_comm (i : Instr) (s : State) :
    perform i (perform .hbtick s) = perform .hbtick (perform i s) := by
  by_cases h : i = .hbtick
  · rw [h]
  · rw [perform_hbtick, perform_hbtick, perform_setHb h, perform_hb h]

/-- TICK writes the counters alone, which these three operations neither read nor write. -/
theorem perform_tick_comm {i : Instr} (h : i = .hbtick ∨ i = .nop ∨ ∃ pos n, i = .setdig pos n) (s : State) :
    perform i (perform .tick s) = perform .tick (perform i s) := by
  obtain rfl | rfl | ⟨pos, n, rfl⟩ := h
  · exact (perform_hbtick_comm .tick s).symm
  · rfl
  · rfl

/-- Settles O52: HB is HBTICK's own, and the counters are TICK's against all but the polls. -/
theorem theHandlersCommute : Obligations.TheHandlersCommute :=
  ⟨fun i s => exec_orders_meet (perform_hbtick_comm i s), fun _ s h => exec_orders_meet (perform_tick_comm h s)⟩

end Sys2Proof.Machine

/-! ## The event word and its decoder (30_encoding.md R71 to R75) -/

namespace Sys2Proof

/-! The fields of R71 -/

theorem fieldOp_toNat (w : EventWord) : (fieldOp w).toNat = w.toNat / 4096 := by
  simp only [fieldOp, BitVec.extractLsb'_toNat, Nat.shiftRight_eq_div_pow]
  omega

theorem fieldRsv_toNat (w : EventWord) : (fieldRsv w).toNat = w.toNat / 1024 % 4 := by
  simp only [fieldRsv, BitVec.extractLsb'_toNat, Nat.shiftRight_eq_div_pow]

theorem fieldPos_toNat (w : EventWord) : (fieldPos w).toNat = w.toNat / 256 % 4 := by
  simp only [fieldPos, BitVec.extractLsb'_toNat, Nat.shiftRight_eq_div_pow]

theorem fieldVal_toNat (w : EventWord) : (fieldVal w).toNat = w.toNat % 256 := by
  simp [fieldVal, BitVec.extractLsb'_toNat]

theorem fieldLow_toNat (w : EventWord) : (fieldLow w).toNat = w.toNat % 4096 := by
  simp [fieldLow, BitVec.extractLsb'_toNat]

theorem fieldLow_eq_zero_iff (w : EventWord) : fieldLow w = 0 ↔ w.toNat % 4096 = 0 := by
  rw [← BitVec.toNat_inj, fieldLow_toNat]
  rfl

theorem fieldRsv_eq_zero_iff (w : EventWord) : fieldRsv w = 0 ↔ w.toNat / 1024 % 4 = 0 := by
  rw [← BitVec.toNat_inj, fieldRsv_toNat]
  rfl

/-- The fields `op` and `EV[11:0]` of format Z make up the word. -/
theorem eq_of_fields_formatZ {v w : EventWord} (hop : fieldOp v = fieldOp w) (hlow : fieldLow v = fieldLow w) :
    v = w := by
  have h1 := congrArg BitVec.toNat hop
  have h2 := congrArg BitVec.toNat hlow
  rw [fieldOp_toNat, fieldOp_toNat] at h1
  rw [fieldLow_toNat, fieldLow_toNat] at h2
  exact BitVec.eq_of_toNat_eq (by omega)

/-- The four fields of format D make up the word. -/
theorem eq_of_fields_formatD {v w : EventWord} (hop : fieldOp v = fieldOp w) (hrsv : fieldRsv v = fieldRsv w)
    (hpos : fieldPos v = fieldPos w) (hval : fieldVal v = fieldVal w) : v = w := by
  have h1 := congrArg BitVec.toNat hop
  have h2 := congrArg BitVec.toNat hrsv
  have h3 := congrArg BitVec.toNat hpos
  have h4 := congrArg BitVec.toNat hval
  rw [fieldOp_toNat, fieldOp_toNat] at h1
  rw [fieldRsv_toNat, fieldRsv_toNat] at h2
  rw [fieldPos_toNat, fieldPos_toNat] at h3
  rw [fieldVal_toNat, fieldVal_toNat] at h4
  exact BitVec.eq_of_toNat_eq (by omega)

/-! The fields of a SETDIG word: each is what `encodeD` put there (R140) -/

theorem fieldOp_or (v w : EventWord) : fieldOp (v ||| w) = fieldOp v ||| fieldOp w := BitVec.extractLsb'_or

theorem fieldRsv_or (v w : EventWord) : fieldRsv (v ||| w) = fieldRsv v ||| fieldRsv w := BitVec.extractLsb'_or

theorem fieldPos_or (v w : EventWord) : fieldPos (v ||| w) = fieldPos v ||| fieldPos w := BitVec.extractLsb'_or

theorem fieldVal_or (v w : EventWord) : fieldVal (v ||| w) = fieldVal v ||| fieldVal w := BitVec.extractLsb'_or

/-! A byte widened to the word fills the field `val` and no other -/

theorem fieldOp_setWidth (v : Byte) : fieldOp (v.setWidth 16) = 0 := by
  apply BitVec.eq_of_toNat_eq
  rw [fieldOp_toNat, BitVec.toNat_setWidth_of_le (by decide)]
  exact Nat.div_eq_of_lt (by omega)

theorem fieldRsv_setWidth (v : Byte) : fieldRsv (v.setWidth 16) = 0 := by
  rw [fieldRsv_eq_zero_iff, BitVec.toNat_setWidth_of_le (by decide)]
  omega

theorem fieldPos_setWidth (v : Byte) : fieldPos (v.setWidth 16) = 0 := by
  apply BitVec.eq_of_toNat_eq
  rw [fieldPos_toNat, BitVec.toNat_setWidth_of_le (by decide)]
  exact congrArg (· % 4) (Nat.div_eq_of_lt v.isLt)

theorem fieldVal_setWidth (v : Byte) : fieldVal (v.setWidth 16) = v := by
  apply BitVec.eq_of_toNat_eq
  rw [fieldVal_toNat, BitVec.toNat_setWidth_of_le (by decide)]
  exact Nat.mod_eq_of_lt v.isLt

/-- The part of a SETDIG word without its numeral: the four constants of the opcode and a position. -/
theorem fields_positionPart (pos : Position) :
    let w := 0x5000#16 ||| BitVec.ofNat 16 pos.val <<< 8
    fieldOp w = 5 ∧ fieldRsv w = 0 ∧ fieldPos w = BitVec.ofFin pos ∧ fieldVal w = 0 := by
  revert pos
  decide

/-- All the fields of a SETDIG word. -/
theorem fields_encodeD (pos : Position) (n : Int) :
    fieldOp (encodeD pos n) = 5 ∧ fieldRsv (encodeD pos n) = 0 ∧ fieldPos (encodeD pos n) = BitVec.ofFin pos ∧
      fieldVal (encodeD pos n) = BitVec.ofInt 8 n := by
  obtain ⟨hop, hrsv, hpos, hval⟩ := fields_positionPart pos
  refine ⟨?_, ?_, ?_, ?_⟩
  · rw [encodeD, fieldOp_or, hop, fieldOp_setWidth]
    rfl
  · rw [encodeD, fieldRsv_or, hrsv, fieldRsv_setWidth]
    rfl
  · rw [encodeD, fieldPos_or, hpos, fieldPos_setWidth]
    exact BitVec.or_zero
  · rw [encodeD, fieldVal_or, hval, fieldVal_setWidth]
    exact BitVec.zero_or

/-! The two formats -/

/-- The operations of format Z: all but SETDIG (R72). -/
def Instr.isFormatZ : Instr → Bool
  | .nop | .tick | .hbtick | .polldm | .polldb => true
  | .setdig _ _ => false

theorem Instr.wellFormed_of_isFormatZ {i : Instr} (h : i.isFormatZ = true) : i.WellFormed := by
  cases i with
  | setdig _ _ => cases h
  | nop | tick | hbtick | polldm | polldb => rfl

theorem fieldLow_encode {i : Instr} (h : i.isFormatZ = true) : fieldLow (encode i) = 0 := by
  cases i with
  | setdig _ _ => cases h
  | nop | tick | hbtick | polldm | polldb => rfl

theorem fieldOp_encode_le {i : Instr} (h : i.isFormatZ = true) : (fieldOp (encode i)).toNat ≤ 4 := by
  cases i with
  | setdig _ _ => cases h
  | nop | tick | hbtick | polldm | polldb => decide

/-- What the decoder reads, by the field `op` alone: a format Z row, SETDIG, or none (R72, R75). -/
theorem decode_cases (w : EventWord) :
    (∃ i : Instr, i.isFormatZ = true ∧ fieldOp w = fieldOp (encode i) ∧ decode w = decodeZ i w) ∨
    (fieldOp w = 5 ∧ decode w = decodeD w) ∨
    (6 ≤ (fieldOp w).toNat ∧ decode w = .error (.reservedOp (fieldOp w))) := by
  unfold decode
  split
  next h => exact .inl ⟨.nop, rfl, BitVec.eq_of_toNat_eq h, rfl⟩
  next h => exact .inl ⟨.tick, rfl, BitVec.eq_of_toNat_eq h, rfl⟩
  next h => exact .inl ⟨.hbtick, rfl, BitVec.eq_of_toNat_eq h, rfl⟩
  next h => exact .inl ⟨.polldm, rfl, BitVec.eq_of_toNat_eq h, rfl⟩
  next h => exact .inl ⟨.polldb, rfl, BitVec.eq_of_toNat_eq h, rfl⟩
  next h => exact .inr (.inl ⟨BitVec.eq_of_toNat_eq h, rfl⟩)
  next => exact .inr (.inr ⟨by grind, rfl⟩)

theorem decodeZ_of_low {w : EventWord} (h : fieldLow w = 0) (i : Instr) : decodeZ i w = .ok i := if_pos h

theorem decodeZ_of_low_ne {w : EventWord} (h : fieldLow w ≠ 0) (i : Instr) :
    decodeZ i w = .error (.nonZeroOperand (fieldOp w) (fieldLow w)) := if_neg h

theorem decodeD_of_rsv {w : EventWord} (h : fieldRsv w = 0) :
    decodeD w = .ok (.setdig (operandPos w) (operandNumeral w)) := if_pos h

theorem decodeD_of_rsv_ne {w : EventWord} (h : fieldRsv w ≠ 0) : decodeD w = .error (.nonZeroRsv (fieldRsv w)) :=
  if_neg h

theorem decode_of_op_five {w : EventWord} (h : fieldOp w = 5) : decode w = decodeD w := by
  rw [decode, h]
  rfl

/-! Decode after encode -/

theorem numeralFits_iff (n : Int) : numeralFits n = true ↔ -128 ≤ n ∧ n ≤ 127 := by
  simp [numeralFits]

/-- A numeral that fits its field is read back from it (R74). -/
theorem operandNumeral_encodeD (pos : Position) {n : Int} (h : numeralFits n = true) :
    operandNumeral (encodeD pos n) = n := by
  obtain ⟨hlo, hhi⟩ := (numeralFits_iff n).1 h
  obtain ⟨-, -, -, hval⟩ := fields_encodeD pos n
  rw [operandNumeral, hval]
  exact BitVec.toInt_ofInt_eq_self (by decide) (by omega) (by omega)

theorem decode_encode_setdig (pos : Position) {n : Int} (h : numeralFits n = true) :
    decode (encode (.setdig pos n)) = .ok (.setdig pos n) := by
  obtain ⟨hop, hrsv, hpos, -⟩ := fields_encodeD pos n
  calc decode (encodeD pos n)
      = decodeD (encodeD pos n) := decode_of_op_five hop
    _ = .ok (.setdig (operandPos (encodeD pos n)) (operandNumeral (encodeD pos n))) := decodeD_of_rsv hrsv
    _ = .ok (.setdig pos n) := by rw [operandPos, hpos, operandNumeral_encodeD pos h]

/-- Settles O41: the words of format Z are five constants, and every field of a SETDIG word is read back. -/
theorem decodeOfEncodeIsTheOperation : Obligations.DecodeOfEncodeIsTheOperation := by
  intro i hi
  cases i with
  | nop | tick | hbtick | polldm | polldb => rfl
  | setdig pos n => exact decode_encode_setdig pos hi

/-- Settles O40: ten closed words, evaluated. -/
theorem wordsDecodeAsTheTableSays : Obligations.WordsDecodeAsTheTableSays := by
  unfold Obligations.WordsDecodeAsTheTableSays
  decide

/-! Encode after decode -/

/-- A word of format D is the word of the operands read from it. -/
theorem encodeD_operands {w : EventWord} (hop : fieldOp w = 5) (hrsv : fieldRsv w = 0) :
    encodeD (operandPos w) (operandNumeral w) = w := by
  obtain ⟨hop', hrsv', hpos', hval'⟩ := fields_encodeD (operandPos w) (operandNumeral w)
  exact eq_of_fields_formatD (hop'.trans hop.symm) (hrsv'.trans hrsv.symm) hpos' (hval'.trans BitVec.ofInt_toInt)

/-- A byte in two's complement is a numeral of its field (R74). -/
theorem numeralFits_operandNumeral (w : EventWord) : numeralFits (operandNumeral w) = true := by
  have hlo := (fieldVal w).le_toInt
  have hhi := (fieldVal w).toInt_lt
  rw [numeralFits_iff, operandNumeral]
  omega

/-- The rule's three clauses of reserved words, in numbers (R75). -/
def Reserved (w : EventWord) : Prop :=
  6 ≤ w.toNat / 4096 ∨ (w.toNat / 4096 ≤ 4 ∧ w.toNat % 4096 ≠ 0) ∨ (w.toNat / 4096 = 5 ∧ w.toNat / 1024 % 4 ≠ 0)

/-- All that the decoder does with a word: it reads the well-formed operation whose word it is, or the word is
reserved and it refuses. -/
theorem decode_spec (w : EventWord) :
    (∃ i : Instr, decode w = .ok i ∧ i.WellFormed ∧ encode i = w ∧ ¬ Reserved w) ∨
    (∃ e, decode w = .error e ∧ Reserved w) := by
  obtain ⟨i, hz, hop, hd⟩ | ⟨hop, hd⟩ | ⟨hop, hd⟩ := decode_cases w
  · have hle : w.toNat / 4096 ≤ 4 := by
      rw [← fieldOp_toNat, hop]
      exact fieldOp_encode_le hz
    by_cases hlow : fieldLow w = 0
    · refine .inl ⟨i, hd.trans (decodeZ_of_low hlow i), Instr.wellFormed_of_isFormatZ hz,
        eq_of_fields_formatZ hop.symm ((fieldLow_encode hz).trans hlow.symm), ?_⟩
      have := (fieldLow_eq_zero_iff w).1 hlow
      unfold Reserved
      omega
    · exact .inr ⟨_, hd.trans (decodeZ_of_low_ne hlow i), .inr (.inl ⟨hle, mt (fieldLow_eq_zero_iff w).2 hlow⟩)⟩
  · have hfive : w.toNat / 4096 = 5 := by
      rw [← fieldOp_toNat, hop]
      rfl
    by_cases hrsv : fieldRsv w = 0
    · refine .inl ⟨_, hd.trans (decodeD_of_rsv hrsv), numeralFits_operandNumeral w, encodeD_operands hop hrsv, ?_⟩
      have := (fieldRsv_eq_zero_iff w).1 hrsv
      unfold Reserved
      omega
    · exact .inr ⟨_, hd.trans (decodeD_of_rsv_ne hrsv), .inr (.inr ⟨hfive, mt (fieldRsv_eq_zero_iff w).2 hrsv⟩)⟩
  · rw [fieldOp_toNat] at hop
    exact .inr ⟨_, hd, .inl hop⟩

/-- Settles O42: the first case of what the decoder does. -/
theorem encodeOfDecodeIsTheWord : Obligations.EncodeOfDecodeIsTheWord := by
  intro w i h
  obtain ⟨j, hj, hwf, henc, -⟩ | ⟨e, he, -⟩ := decode_spec w
  · rw [h] at hj
    cases hj
    exact ⟨hwf, henc⟩
  · rw [h] at he
    cases he

/-- Settles O43: the two cases of what the decoder does exclude each other. -/
theorem reservedWordsAreThoseOfTheRule : Obligations.ReservedWordsAreThoseOfTheRule := by
  intro w
  obtain ⟨i, hi, -, -, hres⟩ | ⟨e, he, hres⟩ := decode_spec w
  · refine ⟨fun ⟨e, he⟩ => ?_, fun h => absurd h hres⟩
    rw [hi] at he
    cases he
  · exact ⟨fun _ => hres, fun _ => ⟨e, he⟩⟩

/-! The opcode map -/

/-- Whatever the operation, its word hits the row of its mnemonic alone. -/
theorem rows_hit_encode (i : Instr) :
    (opTable.filter fun r => r.hits (encode i)).map OpRow.mnemonic = [i.mnemonic] := by
  cases i with
  | nop => exact Laws.WordHitsItsRow.nop
  | tick => exact Laws.WordHitsItsRow.tick
  | hbtick => exact Laws.WordHitsItsRow.hbtick
  | polldm => exact Laws.WordHitsItsRow.polldm
  | polldb => exact Laws.WordHitsItsRow.polldb
  | setdig pos n => exact Laws.WordHitsItsRow.setdig pos n

/-- The mask 0xFC00 keeps the fields `op` and `rsv`. -/
theorem fields_of_setdig_mask {w : EventWord} (h : w &&& 0xFC00#16 = 0x5000#16) : fieldOp w = 5 ∧ fieldRsv w = 0 := by
  have hop : fieldOp (w &&& 0xFC00#16) = fieldOp w := BitVec.extractLsb'_and.trans BitVec.and_allOnes
  have hrsv : fieldRsv (w &&& 0xFC00#16) = fieldRsv w := BitVec.extractLsb'_and.trans BitVec.and_allOnes
  rw [← hop, ← hrsv, h]
  decide

/-- A word that hits a row of the opcode map is the word of some operation. -/
theorem exists_encode_of_hits {r : OpRow} {w : EventWord} (hr : r ∈ opTable) (h : r.hits w = true) :
    ∃ i : Instr, i.WellFormed ∧ encode i = w := by
  have hw : w &&& r.mask = r.pattern := beq_iff_eq.1 h
  have hall : w &&& 0xFFFF#16 = w := BitVec.and_allOnes
  simp only [opTable, List.mem_cons, List.not_mem_nil, or_false] at hr
  obtain rfl | rfl | rfl | rfl | rfl | rfl := hr
  · exact ⟨.nop, rfl, hw.symm.trans hall⟩
  · exact ⟨.tick, rfl, hw.symm.trans hall⟩
  · exact ⟨.hbtick, rfl, hw.symm.trans hall⟩
  · exact ⟨.polldm, rfl, hw.symm.trans hall⟩
  · exact ⟨.polldb, rfl, hw.symm.trans hall⟩
  · obtain ⟨hop, hrsv⟩ := fields_of_setdig_mask hw
    exact ⟨.setdig (operandPos w) (operandNumeral w), numeralFits_operandNumeral w, encodeD_operands hop hrsv⟩

/-- Settles O44: a word that decodes is the word of its operation, which hits one row; a word that hits a row is a
word of an operation and decodes. -/
theorem theOpcodeMapIsTheDecoder : Obligations.TheOpcodeMapIsTheDecoder := by
  intro w
  cases hd : decode w with
  | ok i =>
    obtain ⟨-, rfl⟩ := encodeOfDecodeIsTheWord w i hd
    exact rows_hit_encode i
  | error e =>
    have hnone : ∀ r ∈ opTable, ¬ r.hits w = true := by
      intro r hr hhit
      obtain ⟨i, hwf, rfl⟩ := exists_encode_of_hits hr hhit
      rw [decodeOfEncodeIsTheOperation i hwf] at hd
      cases hd
    rw [List.filter_eq_nil_iff.2 hnone]
    rfl

end Sys2Proof

/-! ## The event port (30_encoding.md R70, R75) -/

namespace Sys2Proof.Machine

/-! Which operation a presentation performs, and what a step then answers (R70) -/

theorem portOp_of_decode_ok {p : PortInput} {i : Instr} (hr : p.rst = false) (hv : p.evValid = true)
    (hd : decode p.ev = .ok i) : portOp p = some i := by
  simp [portOp, hr, hv, hd]

theorem portOp_of_decode_error {p : PortInput} {e : DecodeError} (hd : decode p.ev = .error e) : portOp p = none := by
  simp [portOp, hd]

theorem portOp_of_no_strobe {p : PortInput} (hv : p.evValid = false) : portOp p = none := by
  simp [portOp, hv]

/-- A step adds nothing around the operation presented. -/
theorem step_of_portOp_some {s : State} {p : PortInput} {rest : List PortInput} {i : Instr}
    (hin : s.inputs = p :: rest) (hr : p.rst = false) (hop : portOp p = some i) :
    step s = exec i { s with btnIn := p.btn, inputs := rest } := by
  rw [step_cons hin, performPort_eq, hr, hop, exec_eq_next]
  rfl

/-- A step that presents no operation takes the pins and does nothing else. -/
theorem step_of_portOp_none {s : State} {p : PortInput} {rest : List PortInput} (hin : s.inputs = p :: rest)
    (hr : p.rst = false) (hop : portOp p = none) : step s = .next { s with btnIn := p.btn, inputs := rest } := by
  rw [step_cons hin, performPort_eq, hr, hop]
  rfl

/-- Settles O33: the word presented is the operation presented. -/
theorem stepRunsTheDecodedOperation : Obligations.StepRunsTheDecodedOperation :=
  fun _ _ _ _ hin hr hv hd => step_of_portOp_some hin hr (portOp_of_decode_ok hr hv hd)

/-- Settles O34: neither an empty list nor a missing strobe presents an operation. -/
theorem withoutStrobeNothingIsPerformed : Obligations.WithoutStrobeNothingIsPerformed :=
  ⟨fun _ hin => step_nil hin, fun _ _ _ hin hr hv => step_of_portOp_none hin hr (portOp_of_no_strobe hv)⟩

/-- Settles O35: a word the decoder refuses presents no operation. -/
theorem reservedWordsAreIgnored : Obligations.ReservedWordsAreIgnored :=
  fun _ _ _ _ hin hr _ hd => step_of_portOp_none hin hr (portOp_of_decode_error hd)

theorem decode_of_decodeTableWord {nbits w : Nat} {i : Instr} (h : decodeTableWord nbits w = some i) :
    decode (tableWord nbits w) = .ok i := by
  unfold decodeTableWord at h
  split at h
  next hd => rw [hd, Option.some.inj h]
  next => cases h

/-- Settles O36: the presentation placed carries the word and the level BTN_IN already has, so taking it back off the
list restores the state. -/
theorem aPresentedWordRunsNext : Obligations.APresentedWordRunsNext :=
  fun s _ _ _ h => step_of_portOp_some (presentWord_inputs s _) rfl
    (portOp_of_decode_ok rfl rfl (decode_of_decodeTableWord h))

theorem portOp_present (btn : Byte) {i : Instr} (h : i.WellFormed) : portOp (present btn i) = some i :=
  portOp_of_decode_ok rfl rfl (decodeOfEncodeIsTheOperation i h)

/-- Settles O45: a script presents the word of the operation, which decodes to it. -/
theorem aScriptOperationIsPerformed : Obligations.AScriptOperationIsPerformed :=
  fun _ btn _ _ hwf hin => ⟨portOp_present btn hwf, step_of_portOp_some hin rfl (portOp_present btn hwf)⟩

end Sys2Proof.Machine

/-! ## The frame and its receiver (30_encoding.md R80 to R82) -/

namespace Sys2Proof.Machine

/-- A cell that starts with SCK low has one rising edge, and leaves it low (R81). -/
theorem sckRisingEdges_cell (b : Bool) (ps : List PinRecord) :
    sckRisingEdges false (cellRecords b ++ ps) = 1 + sckRisingEdges false ps := by
  simp [cellRecords]

theorem sckRisingEdges_cells (bs : List Bool) (ps : List PinRecord) :
    sckRisingEdges false (bs.flatMap cellRecords ++ ps) = bs.length + sckRisingEdges false ps := by
  induction bs with
  | nil => simp
  | cons b bs ih =>
    rw [List.flatMap_cons, List.append_assoc, sckRisingEdges_cell, ih, List.length_cons]
    omega

/-- A record that stands `k` times in a cell of either bit stands `k` times in every cell. -/
theorem countP_cells {f : PinRecord → Bool} {k : Nat} (h : ∀ b, (cellRecords b).countP f = k) (bs : List Bool) :
    (bs.flatMap cellRecords).countP f = k * bs.length := by
  induction bs with
  | nil => rfl
  | cons b bs ih => rw [List.flatMap_cons, List.countP_append, h, ih, List.length_cons, Nat.mul_succ, Nat.add_comm]

theorem payloadBits_length (seg sel : Byte) : (payloadBits seg sel).length = 16 := rfl

theorem sckRisingEdges_frameRecords (seg sel : Byte) : sckRisingEdges false (frameRecords seg sel) = 16 := by
  rw [frameRecords, List.cons_append, sckRisingEdges_csN, sckRisingEdges_cells]
  rfl

/-- Settles O25: each of the 16 cells has one rising edge of SCK, one write of each level, and none of CS_N. -/
theorem aFrameIsFiftyWrites : Obligations.AFrameIsFiftyWrites := by
  intro seg sel
  have hedges : sckRisingEdges false ((payloadBits seg sel).flatMap cellRecords) = 16 := by
    rw [← List.append_nil (List.flatMap _ _), sckRisingEdges_cells]
    rfl
  exact ⟨(payloadBits seg sel).flatMap cellRecords, rfl, rfl, payloadBits_length seg sel,
    frameRecords_length seg sel, sckRisingEdges_frameRecords seg sel, hedges,
    countP_cells (k := 0) (by decide) _, countP_cells (k := 1) (by decide) _, countP_cells (k := 1) (by decide) _⟩

/-- The segment byte is the high half of the 16-bit value (R80). -/
theorem payloadWord_getLsbD (seg sel : Byte) (k : Nat) :
    (payloadWord seg sel).getLsbD k = if k < 8 then sel.getLsbD k else seg.getLsbD (k - 8) := BitVec.getLsbD_append

/-- The payload in transmission order is the 16-bit value, bit 15 first (R80). -/
theorem payloadBits_eq_payloadWord (seg sel : Byte) :
    payloadBits seg sel = (List.range 16).map fun k => (payloadWord seg sel).getLsbD (15 - k) := by
  simp only [payloadWord_getLsbD]
  rfl

/-- After a history that leaves SCK and CS_N idle a frame adds one list: its payload (R82). -/
theorem frames_append_frameRecords {d : List PinRecord} (hsck : lineLevel .sck d = false)
    (hcs : lineLevel .csN d = true) (seg sel : Byte) :
    frames (d ++ frameRecords seg sel) = frames d ++ [payloadBits seg sel] := by
  rw [frames, receive_append, take_frame seg sel (receive d) hsck hcs]
  rfl

/-- Settles O26: under the invariant the levels recorded are idle, so the refresh's frame is received whole. -/
theorem theReceiverGetsThePayload : Obligations.TheReceiverGetsThePayload := by
  intro s hinv hrf
  have hsck : lineLevel .sck s.dtrace = false := (hinv.levels_recorded .sck).trans hinv.sck_idle
  have hcs : lineLevel .csN s.dtrace = true := (hinv.levels_recorded .csN).trans hinv.csN_idle
  refine ⟨refreshDigit s, exec_polldm_refreshes hrf, ?_⟩
  rw [refreshDigit_eq, ← payloadBits_eq_payloadWord]
  exact frames_append_frameRecords hsck hcs _ _

end Sys2Proof.Machine

/-! ## The pulse counters (40_pulse_counter.md R100 to R106) -/

namespace Sys2Proof.Machine

/-! SatDec and TICK on one counter -/

theorem satDec_toNat_add_one {c : Byte} (h : c ≠ 0#8) : (satDec c).toNat + 1 = c.toNat := by
  rw [satDec_toNat]
  exact Nat.sub_add_cancel (BitVec.toNat_pos_of_ne_zero h)

/-- Settles O4: on numbers SatDec is truncated subtraction of one from at most 255. -/
theorem satDecNeverWraps : Obligations.SatDecNeverWraps := by
  refine fun c => ⟨fun h => congrArg satDec h, satDec_toNat_add_one, ?_⟩
  rw [satDec_toNat]
  have := c.isLt
  omega

/-- Settles O5: TICK is SatDec on each counter apart. -/
theorem tickDecrementsEachNonZeroCounter : Obligations.TickDecrementsEachNonZeroCounter :=
  fun s => ⟨perform .tick s, exec_tick s, fun h => congrArg satDec h, satDec_toNat_add_one,
    fun h => congrArg satDec h, satDec_toNat_add_one, rfl⟩

/-! A countdown: while a counter is not zero only TICK moves it, and what it guards is kept -/

/-- Counting presentations one at a time. -/
theorem countOp_cons (i : Instr) (p : PortInput) (ps : List PortInput) :
    countOp i (p :: ps) = (if portOp p = some i then 1 else 0) + countOp i ps := by
  rw [countOp, List.countP_cons, Nat.add_comm]
  simp only [beq_iff_eq, countOp]

/-- The counter `c` is a PulseCounter that guards `kept`: until it expires an operation moves it by SatDec if it is
TICK and not at all otherwise, and leaves `kept` alone (R105, R60). Neither depends on the level on BTN_IN. -/
structure Guards {α : Type} (c : State → Byte) (kept : State → α) : Prop where
  perform_eq : ∀ (i : Instr) (s : State), c s ≠ 0#8 →
    c (perform i s) = (if i = .tick then satDec (c s) else c s) ∧ kept (perform i s) = kept s
  latch_eq : ∀ (s : State) (b : Byte), c { s with btnIn := b } = c s ∧ kept { s with btnIn := b } = kept s

section
variable {α : Type} {c : State → Byte} {kept : State → α}

/-- One presentation before expiry takes one from the counter when it performs TICK, and nothing otherwise. -/
theorem Guards.feedPort_exact (h : Guards c kept) {p : PortInput} (hp : p.rst = false) {s : State} (hs : c s ≠ 0#8) :
    (c (feedPort p s)).toNat + (if portOp p = some .tick then 1 else 0) = (c s).toNat ∧
      kept (feedPort p s) = kept s := by
  obtain ⟨hc, hk⟩ := h.latch_eq s p.btn
  rw [feedPort_eq, hp, if_neg Bool.false_ne_true, ← hc, ← hk]
  rw [← hc] at hs
  cases portOp p with
  | none => exact ⟨rfl, rfl⟩
  | some i =>
    obtain ⟨hcount, hkept⟩ := h.perform_eq i _ hs
    rw [performOption_some, hcount]
    refine ⟨?_, hkept⟩
    by_cases hi : i = .tick
    · rw [if_pos hi, if_pos (congrArg some hi), satDec_toNat_add_one hs]
    · rw [if_neg hi, if_neg (mt Option.some.inj hi), Nat.add_zero]

/-- Presentations with fewer TICKs than the counter holds take exactly their TICKs from it: at each of them the
counter has not expired. -/
theorem Guards.feed_exact (h : Guards c kept) {ps : List PortInput} (hps : NoReset ps) {s : State}
    (hlt : countOp .tick ps < (c s).toNat) :
    (c (feed ps s)).toNat + countOp .tick ps = (c s).toNat ∧ kept (feed ps s) = kept s := by
  induction ps generalizing s with
  | nil => exact ⟨rfl, rfl⟩
  | cons p ps ih =>
    obtain ⟨hp, hps'⟩ := List.forall_mem_cons.1 hps
    have hs : c s ≠ 0#8 := fun h0 => by simp [h0] at hlt
    obtain ⟨hcount, hkept⟩ := h.feedPort_exact hp hs
    rw [countOp_cons] at hlt ⊢
    obtain ⟨hcount', hkept'⟩ := ih hps' (s := feedPort p s) (by omega)
    rw [feed_cons]
    exact ⟨by omega, hkept'.trans hkept⟩

/-- The TICK that makes up the number expires the counter, and what it guards is kept still (R106). -/
theorem Guards.expires (h : Guards c kept) {ps : List PortInput} (hps : NoReset ps) {s : State} {p : PortInput}
    (hp : p.rst = false) (htick : portOp p = some .tick) (hlast : countOp .tick ps + 1 = (c s).toNat) :
    c (feedPort p (feed ps s)) = 0#8 ∧ kept (feedPort p (feed ps s)) = kept s := by
  obtain ⟨hcount, hkept⟩ := h.feed_exact hps (s := s) (by omega)
  have hone : (c (feed ps s)).toNat = 1 := by omega
  obtain ⟨hcount', hkept'⟩ := h.feedPort_exact hp (s := feed ps s) fun h0 => by simp [h0] at hone
  rw [if_pos htick, hone] at hcount'
  exact ⟨BitVec.eq_of_toNat_eq (Nat.succ.inj hcount'), hkept'.trans hkept⟩

end

/-! DBCNT guards the committed pattern and the indicators -/

theorem perform_polldb_blackout {s : State} (h : s.dbcnt ≠ 0#8) : perform .polldb s = s := by
  rw [perform_polldb, if_neg fun hc => h hc.1]

/-- What a commit changes beside the window (R119). -/
def commitView (s : State) : Byte × Byte := (s.dbstate, s.ind)

theorem dbcnt_guards_commitView : Guards State.dbcnt commitView where
  perform_eq i s hs := by
    cases i with
    | polldb =>
      rw [perform_polldb_blackout hs]
      exact ⟨rfl, rfl⟩
    | polldm =>
      rw [perform_polldm, refreshDigit_eq]
      split <;> exact ⟨rfl, rfl⟩
    | nop | tick | hbtick | setdig _ _ => exact ⟨rfl, rfl⟩
  latch_eq _ _ := ⟨rfl, rfl⟩

/-- Settles O6: in BLACKOUT no poll commits, so DBCNT counts the TICKs. -/
theorem debounceCountdownIsExact : Obligations.DebounceCountdownIsExact := by
  intro s ps hps hlt
  obtain ⟨hcount, hkept⟩ := dbcnt_guards_commitView.feed_exact hps hlt
  obtain ⟨hdb, hind⟩ := Prod.mk.inj hkept
  refine ⟨hcount, hdb, hind, fun p hp htick hlast => ?_⟩
  obtain ⟨hzero, hkept'⟩ := dbcnt_guards_commitView.expires hps hp htick hlast
  exact ⟨hzero, Prod.mk.inj hkept'⟩

/-! RFCNT guards the digit index, the trace and the lines -/

theorem perform_polldm_waits {s : State} (h : s.rfcnt ≠ 0#8) : perform .polldm s = s := by
  rw [perform_polldm, if_neg h]

/-- What a refresh changes beside the interval (R130): ADI, DTRACE and the levels of SCK, CS_N and SDO. -/
def refreshView (s : State) : Position × List PinRecord × Bool × Bool × Bool := (s.adi, s.dtrace, s.sck, s.csN, s.sdo)

theorem rfcnt_guards_refreshView : Guards State.rfcnt refreshView where
  perform_eq i s hs := by
    cases i with
    | polldm =>
      rw [perform_polldm_waits hs]
      exact ⟨rfl, rfl⟩
    | polldb =>
      rw [perform_polldb, commitSnapshot_eq]
      split <;> exact ⟨rfl, rfl⟩
    | nop | tick | hbtick | setdig _ _ => exact ⟨rfl, rfl⟩
  latch_eq _ _ := ⟨rfl, rfl⟩

/-- Settles O7: until RFCNT expires no poll refreshes, so it counts the TICKs. -/
theorem refreshCountdownIsExact : Obligations.RefreshCountdownIsExact := by
  intro s ps hps hlt
  obtain ⟨hcount, hkept⟩ := rfcnt_guards_refreshView.feed_exact hps hlt
  simp only [refreshView, Prod.mk.injEq] at hkept
  obtain ⟨hadi, htrace, hsck, hcs, hsdo⟩ := hkept
  refine ⟨hcount, hadi, htrace, hsck, hcs, hsdo, fun p hp htick hlast => ?_⟩
  obtain ⟨hzero, hkept'⟩ := rfcnt_guards_refreshView.expires hps hp htick hlast
  simp only [refreshView, Prod.mk.injEq] at hkept'
  obtain ⟨hadi', htrace', -⟩ := hkept'
  exact ⟨hzero, hadi', htrace'⟩

end Sys2Proof.Machine

/-! ## The heartbeat (41_heartbeat.md R110, R111) -/

namespace Sys2Proof.Machine

/-! One HBTICK -/

theorem perform_hbtick_twice (s : State) : perform .hbtick (perform .hbtick s) = s := by
  rw [perform_hbtick, perform_hbtick, Bool.not_not]

/-- Settles O8: HBTICK is Boolean negation on HB, an involution. -/
theorem hbtickTogglesTheHeartbeat : Obligations.HbtickTogglesTheHeartbeat :=
  fun s => ⟨perform .hbtick s, exec_hbtick s, by rw [perform_hbtick, Bool.not_eq_true'], rfl,
    (exec_eq_next .hbtick _).trans (congrArg Host.Outcome.next (perform_hbtick_twice s))⟩

/-! What one presentation does to HB -/

theorem feedPort_of_no_reset {p : PortInput} (hp : p.rst = false) (s : State) :
    feedPort p s = performOption (portOp p) { s with btnIn := p.btn } := by
  rw [feedPort_eq, hp, if_neg Bool.false_ne_true]

theorem rst_of_portOp_some {p : PortInput} {i : Instr} (h : portOp p = some i) : p.rst = false := by
  cases hr : p.rst with
  | false => rfl
  | true => simp [portOp, hr] at h

theorem feedPort_of_portOp_some {p : PortInput} {i : Instr} (h : portOp p = some i) (s : State) :
    feedPort p s = perform i { s with btnIn := p.btn } := by
  rw [feedPort_of_no_reset (rst_of_portOp_some h), h, performOption_some]

/-- A presentation without reset inverts HB when it performs HBTICK, and keeps it otherwise. -/
theorem feedPort_hb {p : PortInput} (hp : p.rst = false) (s : State) :
    (feedPort p s).hb = (s.hb ^^ decide (portOp p = some .hbtick)) := by
  by_cases h : portOp p = some .hbtick
  · rw [feedPort_of_portOp_some h, perform_hbtick, decide_eq_true h, Bool.xor_true]
  · rw [feedPort_of_no_reset hp, decide_eq_false h, Bool.xor_false]
    cases hop : portOp p with
    | none => rfl
    | some i => exact perform_hb (fun hi => h (by rw [hop, hi])) _

/-- The parity of a number one larger exactly when `a` holds. -/
theorem decide_odd_ite_add (a : Prop) [Decidable a] (n : Nat) :
    decide (((if a then 1 else 0) + n) % 2 = 1) = (decide a ^^ decide (n % 2 = 1)) := by
  by_cases ha : a
  · rw [if_pos ha, decide_eq_true ha, Bool.true_xor, ← decide_not, decide_eq_decide]
    omega
  · rw [if_neg ha, decide_eq_false ha, Bool.false_xor, Nat.zero_add]

/-- Settles O9, by induction on the presentations: the first of them takes its part of the parity. -/
theorem heartbeatCountsParity : Obligations.HeartbeatCountsParity := by
  intro s ps hps
  induction ps generalizing s with
  | nil => exact (Bool.xor_false s.hb).symm
  | cons p ps ih =>
    obtain ⟨hp, hps'⟩ := List.forall_mem_cons.1 hps
    rw [feed_cons, ih (feedPort p s) hps', feedPort_hb hp, countOp_cons, decide_odd_ite_add, Bool.xor_assoc]

/-! Two runs, one of them without its HBTICKs -/

/-- An operation other than HBTICK does the same to two states that differ in HB and in what is still to come. -/
theorem perform_eqButHeartbeat {i : Instr} (h : i ≠ .hbtick) (s : State) (b : Bool) (l : List PortInput) :
    (perform i s).EqButHeartbeat (perform i { s with hb := b, inputs := l }) := by
  have hcomm : perform i { s with hb := b, inputs := l } = { perform i s with hb := b, inputs := l } :=
    calc perform i { s with hb := b, inputs := l }
        = { perform i { s with hb := b } with inputs := l } := perform_setInputs i { s with hb := b } l
      _ = { perform i s with hb := b, inputs := l } := by rw [perform_setHb h]
  rw [hcomm]
  rfl

/-- A presentation that is not an HBTICK, be it a reset, keeps two such states together: it gives both the same level
on BTN_IN before it performs anything. -/
theorem State.EqButHeartbeat.feedPort_other {s t : State} (hst : s.EqButHeartbeat t) {p : PortInput}
    (h : portOp p ≠ some .hbtick) : (feedPort p s).EqButHeartbeat (feedPort p t) := by
  rw [hst, feedPort_eq, feedPort_eq]
  split
  · rfl
  · cases hop : portOp p with
    | none => rfl
    | some i => exact perform_eqButHeartbeat (fun hi => h (by rw [hop, hi])) _ _ _

/-- An HBTICK that one run performs and the other does not keeps them together. -/
theorem State.EqButHeartbeat.feedPort_hbtick {s t : State} (hst : s.EqButHeartbeat t) {p : PortInput}
    (h : portOp p = some .hbtick) : (feedPort p s).EqButHeartbeat t := by
  rw [feedPort_of_portOp_some h, perform_hbtick]
  exact hst

/-- Two runs from states that differ in HB alone, the second without the HBTICKs of the first, end in such states. -/
theorem State.EqButHeartbeat.feed_without_hbtick {s t : State} (hst : s.EqButHeartbeat t) (ps : List PortInput) :
    (feed ps s).EqButHeartbeat (feed (ps.filter fun p => portOp p != some .hbtick) t) := by
  induction ps generalizing s t with
  | nil => exact hst
  | cons p ps ih =>
    by_cases h : portOp p = some .hbtick
    · rw [feed_cons, List.filter_cons_of_neg (by simp [h])]
      exact ih (hst.feedPort_hbtick h)
    · rw [feed_cons, List.filter_cons_of_pos (by simp [h]), feed_cons]
      exact ih (hst.feedPort_other h)

/-- Settles O10: both runs start in one state. -/
theorem heartbeatIsIsolated : Obligations.HeartbeatIsIsolated :=
  fun s ps => State.EqButHeartbeat.feed_without_hbtick (s := s) (t := s) rfl ps

end Sys2Proof.Machine

/-! ## The Debounce Engine (42_debounce_fsm.md R115 to R125) -/

namespace Sys2Proof.Machine

/-! One POLLDB: in BLACKOUT, with an equal sample, and with a differing one -/

/-- Settles O11: in BLACKOUT the guard ends the poll before the sample is taken. -/
theorem polldbDoesNothingInBlackout : Obligations.PolldbDoesNothingInBlackout :=
  fun _ _ h => exec_polldb_waits (.inl h)

/-- Settles O12: the comparator sees no difference. -/
theorem polldbIdenticalChangesNothing : Obligations.PolldbIdenticalChangesNothing :=
  fun _ _ h => exec_polldb_waits (.inr h)

/-- A commit of the sample shows the input lines inside the mask and keeps the indicators outside it (R119, R150). -/
theorem commitSnapshot_ind_getLsbD (s : State) {i : Nat} (hi : i < 8) :
    (commitSnapshot (snapshot s) s).ind.getLsbD i =
      if s.cfg.buttonMask.getLsbD i then s.btnIn.getLsbD i else s.ind.getLsbD i := by
  rw [commitSnapshot_eq]
  cases hm : s.cfg.buttonMask.getLsbD i <;> simp [snapshot, samplePort, hm, hi, -BitVec.getLsbD_eq_getElem]

/-- Settles O13: the poll commits, and a commit writes DBSTATE, DBCNT and IND alone. -/
theorem polldbCommitsADifferingSample : Obligations.PolldbCommitsADifferingSample :=
  fun s h hd => ⟨commitSnapshot (snapshot s) s, exec_polldb_commits h hd, rfl, rfl,
    fun _ hi => commitSnapshot_ind_getLsbD s hi, rfl⟩

/-- In ARMED a poll leaves the masked sample committed, be it new or the old one. -/
theorem perform_polldb_dbstate_armed {s : State} (h : s.dbcnt = 0#8) :
    (perform .polldb s).dbstate = snapshot s := by
  rw [perform_polldb]
  split
  next => rfl
  next hn => exact (not_not.1 fun hd => hn ⟨h, hd⟩).symm

/-- A masked sample differs from a pattern without bits outside the mask at a bit of the mask, if at all (R118). -/
theorem and_mask_ne_iff {v m d : Byte} (h : d &&& ~~~m = 0) :
    v &&& m ≠ d ↔ ∃ i < 8, m.getLsbD i = true ∧ v.getLsbD i ≠ d.getLsbD i := by
  have hout : ∀ i < 8, m.getLsbD i = false → d.getLsbD i = false := fun i hi hm => by
    simpa [hi, hm, -BitVec.getLsbD_eq_getElem] using congrArg (BitVec.getLsbD · i) h
  constructor
  · intro hne
    by_contra hall
    push Not at hall
    refine hne (BitVec.eq_of_getLsbD_eq fun i hi => ?_)
    rw [BitVec.getLsbD_and]
    cases hm : m.getLsbD i with
    | false => rw [hout i hi hm, Bool.and_false]
    | true => rw [hall i hi hm, Bool.and_true]
  · rintro ⟨i, -, hm, hvd⟩ rfl
    exact hvd (by rw [BitVec.getLsbD_and, hm, Bool.and_true])

/-- Settles O14: an armed poll leaves the masked sample, which differs from DBSTATE at a monitored bit or nowhere. -/
theorem comparatorSeesAnyMonitoredBit : Obligations.ComparatorSeesAnyMonitoredBit := by
  intro s h hmask
  refine ⟨perform .polldb s, exec_eq_next .polldb s, ?_⟩
  rw [perform_polldb_dbstate_armed h]
  exact and_mask_ne_iff hmask

/-- A poll reads the level on BTN_IN through the mask only. -/
theorem perform_polldb_setBtnIn {s : State} {v : Byte} (h : v &&& s.cfg.buttonMask = s.btnIn &&& s.cfg.buttonMask) :
    perform .polldb { s with btnIn := v } = { perform .polldb s with btnIn := v } := by
  have hsnap : snapshot { s with btnIn := v } = snapshot s := h
  rw [perform_polldb, perform_polldb, hsnap]
  split <;> rfl

theorem exec_polldb_setBtnIn {s : State} {v : Byte} (h : v &&& s.cfg.buttonMask = s.btnIn &&& s.cfg.buttonMask) :
    exec .polldb { s with btnIn := v } = .next { perform .polldb s with btnIn := v } := by
  rw [exec_eq_next, perform_polldb_setBtnIn h]

/-- Settles O15: both are the poll of the first sample, each with its own level put back. -/
theorem unmonitoredBitsNeverInfluence : Obligations.UnmonitoredBitsNeverInfluence :=
  fun s v _ h => ⟨perform .polldb { s with btnIn := v }, exec_polldb_setBtnIn (s := { s with btnIn := v }) rfl,
    exec_polldb_setBtnIn (s := { s with btnIn := v }) h.symm⟩

/-! What one presentation does to the engine: in BLACKOUT `Guards.feedPort_exact` says it, in ARMED the next lemmas -/

theorem debounceWindow_ne_zero (c : Config) : c.debounceWindow ≠ 0#8 := fun h =>
  absurd c.debounceWindow_pos (by simp [h])

/-- In ARMED an operation leaves the engine as it is, or it is a POLLDB that commits. -/
theorem perform_armed (i : Instr) {s : State} (hs : s.dbcnt = 0#8) :
    ((perform i s).dbcnt = 0#8 ∧ (perform i s).dbstate = s.dbstate) ∨
      (i = .polldb ∧ (perform i s).dbstate ≠ s.dbstate ∧ (perform i s).dbcnt = s.cfg.debounceWindow) := by
  obtain h | ⟨-, h⟩ | ⟨-, h⟩ | ⟨-, -, h⟩ | ⟨hi, -, hd, h⟩ | ⟨p, n, -, h⟩ := perform_cases i s
  · exact .inl (by rw [h]; exact ⟨hs, rfl⟩)
  · exact .inl (by rw [h, hs]; exact ⟨rfl, rfl⟩)
  · exact .inl (by rw [h]; exact ⟨hs, rfl⟩)
  · exact .inl (by rw [h, refreshDigit_dbcnt, refreshDigit_dbstate]; exact ⟨hs, rfl⟩)
  · exact .inr (by rw [h]; exact ⟨hi, hd, rfl⟩)
  · exact .inl (by rw [h]; exact ⟨hs, rfl⟩)

theorem feedPort_armed {p : PortInput} (hp : p.rst = false) {s : State} (hs : s.dbcnt = 0#8) :
    ((feedPort p s).dbcnt = 0#8 ∧ (feedPort p s).dbstate = s.dbstate) ∨
      (portOp p = some .polldb ∧ (feedPort p s).dbstate ≠ s.dbstate ∧
        (feedPort p s).dbcnt = s.cfg.debounceWindow) := by
  rw [feedPort_of_no_reset hp]
  cases portOp p with
  | none => exact .inl ⟨hs, rfl⟩
  | some i =>
    rw [Option.some_inj]
    exact perform_armed i (s := { s with btnIn := p.btn }) hs

/-- Without reset DBSTATE changes in ARMED only, and the change starts a whole window (R119, R121). -/
theorem window_of_feedPort_dbstate_ne {p : PortInput} (hp : p.rst = false) {s : State}
    (hne : (feedPort p s).dbstate ≠ s.dbstate) :
    s.dbcnt = 0#8 ∧ (feedPort p s).dbcnt = s.cfg.debounceWindow := by
  by_cases hs : s.dbcnt = 0#8
  · obtain ⟨-, hkept⟩ | ⟨-, -, hwindow⟩ := feedPort_armed hp hs
    · exact absurd hkept hne
    · exact ⟨hs, hwindow⟩
  · obtain ⟨-, hkept⟩ := dbcnt_guards_commitView.feedPort_exact hp hs
    exact absurd (congrArg Prod.fst hkept) hne

/-- A POLLDB in ARMED whose masked sample differs from DBSTATE commits that sample (R124). -/
theorem feedPort_polldb_commits {p : PortInput} (hop : portOp p = some .polldb) {s : State} (hs : s.dbcnt = 0#8)
    (hd : p.btn &&& s.cfg.buttonMask ≠ s.dbstate) :
    feedPort p s = commitSnapshot (p.btn &&& s.cfg.buttonMask) { s with btnIn := p.btn } := by
  rw [feedPort_of_portOp_some hop, perform_polldb]
  exact if_pos ⟨hs, hd⟩

/-! The two phases (R121) -/

theorem State.phase_armed_iff (s : State) : s.phase = .armed ↔ s.dbcnt = 0#8 := by simp [State.phase]

theorem State.phase_blackout_iff (s : State) : s.phase = .blackout ↔ s.dbcnt ≠ 0#8 := by simp [State.phase]

/-- In BLACKOUT only the TICK that finds DBCNT at 1 takes it to 0 (R106). -/
theorem tick_of_feedPort_dbcnt_zero {p : PortInput} (hp : p.rst = false) {s : State} (hs : s.dbcnt ≠ 0#8)
    (hzero : (feedPort p s).dbcnt = 0#8) : portOp p = some .tick ∧ s.dbcnt = 1#8 := by
  obtain ⟨hcount, -⟩ := dbcnt_guards_commitView.feedPort_exact hp hs
  have hpos := BitVec.toNat_pos_of_ne_zero hs
  rw [hzero, BitVec.toNat_ofNat, Nat.zero_mod, Nat.zero_add] at hcount
  by_cases hop : portOp p = some .tick
  · rw [if_pos hop] at hcount
    exact ⟨hop, BitVec.eq_of_toNat_eq hcount.symm⟩
  · rw [if_neg hop] at hcount
    omega

/-- Settles O17: a step feeds one presentation, and the phase is read off DBCNT. -/
theorem debouncePhasesChangeOnlySo : Obligations.DebouncePhasesChangeOnlySo := by
  intro s t p rest hin hstep
  rw [step_eq_feedPort hin] at hstep
  cases hstep
  simp only [State.phase_armed_iff, State.phase_blackout_iff]
  refine ⟨fun hp => ?_, fun hp hs ht => ?_, fun hp hs => tick_of_feedPort_dbcnt_zero hp hs,
    fun hp _ _ hne => ?_, fun _ hop hs => ?_⟩
  · rw [feedPort_eq, if_pos hp]
    rfl
  · obtain ⟨hzero, -⟩ | hcommit := feedPort_armed hp hs
    · exact absurd hzero ht
    · exact hcommit
  · rw [(window_of_feedPort_dbstate_ne hp hne).2]
    exact debounceWindow_ne_zero s.cfg
  · rw [feedPort_of_portOp_some hop, perform_tick]
    exact congrArg satDec hs

/-! Runs of presentations -/

theorem feed_cfg (ps : List PortInput) (s : State) : (feed ps s).cfg = s.cfg := by
  induction ps generalizing s with
  | nil => rfl
  | cons p ps ih => rw [feed_cons, ih, feedPort_cfg]

/-- Settles O18: the first change loads the window, and with fewer TICKs DBCNT is not yet 0 at the second. -/
theorem commitsAreAWindowApart : Obligations.CommitsAreAWindowApart := by
  intro s a b ps ha hb hps hchange hchange'
  obtain ⟨-, hwindow⟩ := window_of_feedPort_dbstate_ne ha hchange
  obtain ⟨hzero, -⟩ := window_of_feedPort_dbstate_ne hb hchange'
  by_contra hlt
  rw [Nat.not_le, ← hwindow] at hlt
  obtain ⟨hcount, -⟩ := dbcnt_guards_commitView.feed_exact hps hlt
  rw [hzero, BitVec.toNat_ofNat] at hcount
  omega

/-- Two states that differ in the level on BTN_IN, and in nothing else. -/
def State.EqButSample (s t : State) : Prop := s = { t with btnIn := s.btnIn }

/-- In BLACKOUT no operation reads the level on BTN_IN (R116). -/
theorem perform_setBtnIn_blackout (i : Instr) {s : State} (hs : s.dbcnt ≠ 0#8) (v : Byte) :
    perform i { s with btnIn := v } = { perform i s with btnIn := v } := by
  cases i with
  | nop | tick | hbtick | setdig _ _ => rfl
  | polldm =>
    rw [perform_polldm, perform_polldm, refreshDigit_eq, refreshDigit_eq]
    split <;> rfl
  | polldb => rw [perform_polldb_blackout hs, perform_polldb_blackout (s := { s with btnIn := v }) hs]

/-- In BLACKOUT two presentations of one operation keep two such states together. -/
theorem State.EqButSample.feedPort_same_op {s t : State} (hst : s.EqButSample t) (ht : t.dbcnt ≠ 0#8)
    {p q : PortInput} (hp : p.rst = false) (hq : q.rst = false) (hop : portOp p = portOp q) :
    (feedPort p s).EqButSample (feedPort q t) := by
  rw [hst, feedPort_of_no_reset hp, feedPort_of_no_reset hq, hop]
  cases portOp q with
  | none => rfl
  | some i =>
    rw [performOption_some, performOption_some, perform_setBtnIn_blackout i ht p.btn,
      perform_setBtnIn_blackout i ht q.btn]
    rfl

/-- Two runs of the same operations keep two such states together as long as the window lasts. -/
theorem State.EqButSample.feed_same_ops {ps qs : List PortInput} (hps : NoReset ps) (hqs : NoReset qs)
    (hops : ps.map portOp = qs.map portOp) {s t : State} (hst : s.EqButSample t)
    (hlt : countOp .tick qs < t.dbcnt.toNat) : (feed ps s).EqButSample (feed qs t) := by
  induction qs generalizing ps s t with
  | nil =>
    obtain rfl : ps = [] := List.map_eq_nil_iff.1 hops
    exact hst
  | cons q qs ih =>
    obtain ⟨p, ps, rfl, hop, hops'⟩ := List.map_eq_cons_iff.1 hops
    obtain ⟨hp, hps'⟩ := List.forall_mem_cons.1 hps
    obtain ⟨hq, hqs'⟩ := List.forall_mem_cons.1 hqs
    have ht : t.dbcnt ≠ 0#8 := fun h0 => by simp [h0] at hlt
    obtain ⟨hcount, -⟩ := dbcnt_guards_commitView.feedPort_exact hq ht
    rw [countOp_cons] at hlt
    have hlt' : countOp .tick qs < (feedPort q t).dbcnt.toNat := by omega
    exact ih hps' hqs' hops' (hst.feedPort_same_op ht hp hq hop) hlt'

/-- The count of an operation depends on the operations presented alone. -/
theorem countOp_eq_count (i : Instr) (ps : List PortInput) : countOp i ps = (ps.map portOp).count (some i) := by
  rw [countOp, List.count, List.countP_map]
  rfl

/-- Settles O19: both runs start in one state. -/
theorem samplesInBlackoutAreInvisible : Obligations.SamplesInBlackoutAreInvisible := by
  intro s ps qs hps hqs hops hlt
  rw [countOp_eq_count, hops, ← countOp_eq_count] at hlt
  exact State.EqButSample.feed_same_ops hps hqs hops (s := s) (t := s) rfl hlt

/-- An operation other than POLLDB moves DBCNT by its TICK, saturating, and keeps DBSTATE, in either phase. -/
theorem perform_without_polldb {i : Instr} (hi : i ≠ .polldb) (s : State) :
    (perform i s).dbcnt.toNat = s.dbcnt.toNat - (if i = .tick then 1 else 0) ∧
      (perform i s).dbstate = s.dbstate := by
  cases i with
  | polldb => exact absurd rfl hi
  | tick => exact ⟨satDec_toNat s.dbcnt, rfl⟩
  | polldm =>
    rw [perform_polldm, refreshDigit_eq]
    split <;> exact ⟨rfl, rfl⟩
  | nop | hbtick | setdig _ _ => exact ⟨rfl, rfl⟩

theorem feedPort_without_polldb {p : PortInput} (hp : p.rst = false) (hop : portOp p ≠ some .polldb) (s : State) :
    (feedPort p s).dbcnt.toNat = s.dbcnt.toNat - (if portOp p = some .tick then 1 else 0) ∧
      (feedPort p s).dbstate = s.dbstate := by
  rw [feedPort_of_no_reset hp]
  cases hopi : portOp p with
  | none => exact ⟨rfl, rfl⟩
  | some i =>
    simp only [Option.some_inj]
    exact perform_without_polldb (fun h => hop (h ▸ hopi)) _

/-- Without polls the TICKs run DBCNT down and no further than 0, and nothing is committed. -/
theorem feed_without_polldb {ps : List PortInput} (hps : NoReset ps) (hpoll : countOp .polldb ps = 0) (s : State) :
    (feed ps s).dbcnt.toNat = s.dbcnt.toNat - countOp .tick ps ∧ (feed ps s).dbstate = s.dbstate := by
  induction ps generalizing s with
  | nil => exact ⟨rfl, rfl⟩
  | cons p ps ih =>
    obtain ⟨hp, hps'⟩ := List.forall_mem_cons.1 hps
    rw [countOp_cons, Nat.add_eq_zero_iff] at hpoll
    obtain ⟨hop, hpoll'⟩ := hpoll
    obtain ⟨hcount, hkept⟩ := feedPort_without_polldb hp (by simpa using hop) s
    obtain ⟨hcount', hkept'⟩ := ih hps' hpoll' (feedPort p s)
    rw [feed_cons, countOp_cons, hcount', hcount, Nat.sub_sub]
    exact ⟨rfl, hkept'.trans hkept⟩

/-- Settles O20: `qs` takes its TICKs from DBCNT and commits nothing, `us` takes the rest, and so the next poll is
armed. -/
theorem firstPollAfterTheWindowCommits : Obligations.FirstPollAfterTheWindowCommits := by
  intro s qs us b hqs hus hlt hpoll hge hb hd
  rw [countOp, List.countP_append, ← countOp, ← countOp] at hge
  obtain ⟨hcount, hkept⟩ := dbcnt_guards_commitView.feed_exact hqs hlt
  obtain ⟨hcount', hkept'⟩ := feed_without_polldb hus hpoll (feed qs s)
  have hdbstate : (feed us (feed qs s)).dbstate = s.dbstate := hkept'.trans (congrArg Prod.fst hkept)
  have hcfg : (feed us (feed qs s)).cfg = s.cfg := by rw [feed_cfg, feed_cfg]
  have hzero : (feed us (feed qs s)).dbcnt = 0#8 := BitVec.eq_of_toNat_eq (by rw [hcount', BitVec.toNat_zero]; omega)
  rw [feedPort_polldb_commits hb hzero (by rwa [hcfg, hdbstate]), ← hcfg]
  exact ⟨hdbstate, rfl, rfl⟩

end Sys2Proof.Machine

/-! ## The invariant of the block (42_debounce_fsm.md R127 and the rules `State.Inv` names) -/

namespace Sys2Proof.Machine

/-- The level a line is left at by a history that ends with a frame. -/
theorem lineLevel_append_frameRecords {d : List PinRecord} (hsck : lineLevel .sck d = false)
    (hcs : lineLevel .csN d = true) (seg sel : Byte) (l : Line) :
    lineLevel l (d ++ frameRecords seg sel) = match l with
      | .sck => false
      | .csN => true
      | .sdo => sel.getLsbD 0 := by
  have h : receive (d ++ frameRecords seg sel) =
      ⟨false, true, sel.getLsbD 0, [], (receive d).emitted ++ [payloadBits seg sel]⟩ := by
    rw [receive_append]
    exact take_frame seg sel (receive d) hsck hcs
  cases l with
  | sck => exact congrArg Receiver.sck h
  | csN => exact congrArg Receiver.csN h
  | sdo => exact congrArg Receiver.sdo h

/-! Each effect keeps the invariant -/

section
variable {s : State} (h : s.Inv)
include h

/-- The invariant does not speak of what the outside drives. -/
theorem inv_setPins (v : Byte) (l : List PortInput) : State.Inv { s with btnIn := v, inputs := l } := { h with }

theorem inv_tick : State.Inv { s with dbcnt := satDec s.dbcnt, rfcnt := satDec s.rfcnt } where
  __ := h
  dbcnt_le := by rw [satDec_toNat]; exact (Nat.sub_le _ _).trans h.dbcnt_le
  rfcnt_le := by rw [satDec_toNat]; exact (Nat.sub_le _ _).trans h.rfcnt_le

theorem inv_hbtick : State.Inv { s with hb := !s.hb } := { h with }

/-- A commit of a masked pattern writes DBSTATE and the monitored indicators together. -/
theorem inv_commitSnapshot : (commitSnapshot (snapshot s) s).Inv where
  __ := h
  dbstate_masked := by
    show s.btnIn &&& s.cfg.buttonMask &&& ~~~s.cfg.buttonMask = 0
    simp [BitVec.and_assoc]
  ind_shows := by
    refine (commitSnapshot_ind_monitored (snapshot s) s).trans ?_
    show s.btnIn &&& s.cfg.buttonMask &&& s.cfg.buttonMask = s.btnIn &&& s.cfg.buttonMask
    simp [BitVec.and_assoc]
  ind_unrelated := (commitSnapshot_ind_unrelated (snapshot s) s).trans h.ind_unrelated
  dbcnt_le := le_rfl

theorem inv_digitWrite (p : Position) (n : Int) : (digitWrite p (encodeNumeral s.cfg n) s).Inv where
  __ := h
  digits_encoded := fun q => by
    by_cases hq : q = p
    · exact ⟨n, by rw [hq]; exact digitRead_digitWrite_same p _ s⟩
    · rw [digitRead_digitWrite_other hq]
      exact h.digits_encoded q

/-- A refresh adds one whole frame to DTRACE, leaves the lines as the frame does, and counts it in ADI. -/
theorem inv_refreshDigit : (refreshDigit s).Inv := by
  have hsck : lineLevel .sck s.dtrace = false := (h.levels_recorded .sck).trans h.sck_idle
  have hcs : lineLevel .csN s.dtrace = true := (h.levels_recorded .csN).trans h.csN_idle
  have hframes := frames_append_frameRecords hsck hcs (digitRead s s.adi) (selectRead s s.adi)
  rw [refreshDigit_eq]
  exact { h with
    rfcnt_le := le_rfl
    csN_idle := rfl
    sck_idle := rfl
    levels_recorded := fun l => lineLevel_append_frameRecords hsck hcs _ _ l
    frames_whole := fun f hf => by
      rw [hframes, List.mem_append, List.mem_singleton] at hf
      obtain hf | rfl := hf
      · exact h.frames_whole f hf
      · exact payloadBits_length _ _
    writes_whole := by
      rw [hframes, List.length_append, List.length_append, h.writes_whole, frameRecords_length,
        List.length_singleton, Nat.mul_succ]
    adi_counts := by
      rw [hframes, List.length_append, List.length_singleton, Fin.val_add, h.adi_counts]
      omega }

theorem inv_perform (i : Instr) : (perform i s).Inv := by
  obtain hp | ⟨-, hp⟩ | ⟨-, hp⟩ | ⟨-, -, hp⟩ | ⟨-, -, -, hp⟩ | ⟨p, n, -, hp⟩ := perform_cases i s
  · rw [hp]
    exact h
  · rw [hp]
    exact inv_tick h
  · rw [hp]
    exact inv_hbtick h
  · rw [hp]
    exact inv_refreshDigit h
  · rw [hp]
    exact inv_commitSnapshot h
  · rw [hp]
    exact inv_digitWrite h p n

end

/-- After reset nothing is committed, shown or written, and every digit is BLANK, the encoding of -1. -/
theorem inv_resetOf (c : Config) : (State.resetOf c).Inv where
  dbstate_masked := BitVec.zero_and
  ind_shows := by
    show c.indInit &&& ~~~c.buttonMask &&& c.buttonMask = 0
    simp [BitVec.and_assoc]
  ind_unrelated := by
    show c.indInit &&& ~~~c.buttonMask &&& ~~~c.buttonMask = c.indInit &&& ~~~c.buttonMask
    rw [BitVec.and_assoc, BitVec.and_self]
  dbcnt_le := Nat.zero_le _
  rfcnt_le := Nat.zero_le _
  digits_encoded := fun p => ⟨-1, (digitRead_resetOf c p).trans (encodeNumeral_of_out c (.inl (by decide))).symm⟩
  csN_idle := rfl
  sck_idle := rfl
  levels_recorded := fun l => by cases l <;> rfl
  frames_whole := fun _ hf => absurd hf List.not_mem_nil
  writes_whole := rfl
  adi_counts := rfl

/-- Settles O47: `State.reset` is the reset state of one of the builds. -/
theorem resetMeetsTheInvariant : Obligations.ResetMeetsTheInvariant := ⟨inv_resetOf Config.build, inv_resetOf⟩

/-- A reset answers the reset state of the same build, under the pins as they are. -/
theorem inv_resetBlock (s : State) : (resetBlock s).Inv := inv_setPins (inv_resetOf s.cfg) s.btnIn s.inputs

theorem inv_feedPort {s : State} (h : s.Inv) (p : PortInput) : (feedPort p s).Inv := by
  rw [feedPort_eq]
  split
  · exact inv_resetBlock _
  · cases portOp p with
    | none => exact inv_setPins h p.btn s.inputs
    | some i => exact inv_perform (inv_setPins h p.btn s.inputs) i

/-- Settles O46: a step with nothing presented answers the same state, and any other feeds one presentation. -/
theorem everyStepKeepsTheInvariant : Obligations.EveryStepKeepsTheInvariant := by
  intro s t h hstep
  cases hin : s.inputs with
  | nil =>
    rw [step_nil hin] at hstep
    cases hstep
    exact h
  | cons p rest =>
    rw [step_eq_feedPort hin] at hstep
    cases hstep
    exact inv_setPins (inv_feedPort h p) _ rest

end Sys2Proof.Machine

/-! ## The Display Multiplexer (43_display_multiplexer.md R130 to R143) -/

namespace Sys2Proof.Machine

/-! One POLLDM, one byte, one SETDIG -/

/-- Settles O22: the guard ends the poll. -/
theorem polldmDoesNothingBeforeItsTime : Obligations.PolldmDoesNothingBeforeItsTime :=
  fun _ h => exec_polldm_waits h

/-- Settles O23: past the guard the poll is one refresh, whose every write `refreshDigit_eq` names. -/
theorem polldmSendsOneFrameAndAdvances : Obligations.PolldmSendsOneFrameAndAdvances := by
  intro s
  refine ⟨exec_polldm_waits, fun h => ⟨refreshDigit s, exec_polldm_refreshes h, ?_⟩⟩
  have hlen : (s.dtrace ++ frameRecords (digitRead s s.adi) (selectRead s s.adi)).length = s.dtrace.length + 50 := by
    rw [List.length_append, frameRecords_length]
  rw [refreshDigit_eq]
  exact ⟨rfl, hlen, Fin.val_add s.adi 1, rfl, rfl, rfl, rfl, rfl⟩

/-- Settles O24: eight bits, three records each. -/
theorem shiftByteWritesEightCells : Obligations.ShiftByteWritesEightCells := fun s v => ⟨shiftByte_eq v s, rfl⟩

/-- Settles O29: SETDIG writes one entry of DIGBUF. -/
theorem setdigStoresTheEncoding : Obligations.SetdigStoresTheEncoding := by
  intro s pos n
  have hpos : digitRead (digitWrite pos (encodeNumeral s.cfg n) s) pos = encodeNumeral s.cfg n :=
    digitRead_digitWrite_same pos _ s
  refine ⟨digitWrite pos (encodeNumeral s.cfg n) s, exec_setdig pos n s, fun k hk => ?_, fun hout => ?_,
    fun p hp => digitRead_digitWrite_other hp _ s, rfl⟩
  · rw [hpos, hk, encodeNumeral_of_fin]
  · rw [hpos, encodeNumeral_of_out _ hout]

/-! What the refresh of a position transmits -/

/-- A POLLDM that passes its guard adds the frame of the digit held at ADI (R130). -/
theorem exec_polldm_sends {s : State} {v : Byte} (h : s.rfcnt = 0#8) (hv : digitRead s s.adi = v) :
    ∃ t, exec .polldm s = .next t ∧ t.dtrace = s.dtrace ++ frameRecords v (s.cfg.selectTable.get s.adi) :=
  ⟨refreshDigit s, exec_polldm_refreshes h, by rw [refreshDigit_eq, hv]; rfl⟩

/-- Settles O30: SETDIG keeps RFCNT, ADI and DTRACE, so the poll after it sends the entry just written. -/
theorem transmittedSegmentIsTheEncoding : Obligations.TransmittedSegmentIsTheEncoding := by
  intro s n
  refine ⟨fun k hk => by rw [hk, encodeNumeral_of_fin], fun hout => encodeNumeral_of_out _ hout, fun h => ?_⟩
  obtain ⟨t, hexec, htrace⟩ := exec_polldm_sends (s := digitWrite s.adi (encodeNumeral s.cfg n) s) h
    (digitRead_digitWrite_same s.adi _ s)
  exact ⟨_, t, exec_setdig s.adi n s, hexec, htrace⟩

/-- SETDIG of a position alone writes its entry of DIGBUF (R42, R64). -/
theorem perform_digitRead {i : Instr} {pos : Position} (h : ∀ m, i ≠ .setdig pos m) (s : State) :
    digitRead (perform i s) pos = digitRead s pos := by
  have hw : opWrites i (.digit pos) = false := by
    cases i with
    | setdig q m =>
      have hq : pos ≠ q := fun e => h m (e ▸ rfl)
      simpa [opWrites] using hq
    | nop | tick | hbtick | polldm | polldb => rfl
  exact (agree_perform i s hw).symm

theorem feedPort_digitRead {p : PortInput} {pos : Position} (hp : p.rst = false)
    (h : ∀ m, portOp p ≠ some (.setdig pos m)) (s : State) : digitRead (feedPort p s) pos = digitRead s pos := by
  rw [feedPort_of_no_reset hp]
  cases hop : portOp p with
  | none => rfl
  | some i => exact perform_digitRead (fun m hi => h m (by rw [hop, hi])) _

/-- A digit stays until it is set again or the block is reset (R64, R143). -/
theorem feed_digitRead {ps : List PortInput} {pos : Position} (hps : NoReset ps)
    (h : ∀ p ∈ ps, ∀ m, portOp p ≠ some (.setdig pos m)) (s : State) :
    digitRead (feed ps s) pos = digitRead s pos := by
  induction ps generalizing s with
  | nil => rfl
  | cons p ps ih =>
    obtain ⟨hp, hps'⟩ := List.forall_mem_cons.1 hps
    obtain ⟨hop, hops⟩ := List.forall_mem_cons.1 h
    rw [feed_cons, ih hps' hops, feedPort_digitRead hp hop]

/-- Settles O31: the digit set is still held when its position is refreshed. -/
theorem aDigitSetReachesTheWire : Obligations.ADigitSetReachesTheWire := by
  intro s pos n ps u hps hops hset hadi hrf
  rw [exec_setdig] at hset
  cases hset
  have hdigit : digitRead (feed ps (digitWrite pos (encodeNumeral s.cfg n) s)) pos = encodeNumeral s.cfg n := by
    rw [feed_digitRead hps hops, digitRead_digitWrite_same]
  obtain ⟨t, hexec, htrace⟩ := exec_polldm_sends hrf ((congrArg _ hadi).trans hdigit)
  refine ⟨t, hexec, ?_⟩
  rw [htrace, hadi, feed_cfg, digitWrite_cfg]

/-! The positions refreshed -/

/-- A presentation refreshes the display: it performs POLLDM and finds RFCNT expired (R130). -/
def Refreshes (p : PortInput) (s : State) : Prop := portOp p = some .polldm ∧ s.rfcnt = 0#8

theorem refreshed_cons_of_refreshes {p : PortInput} {s : State} (h : Refreshes p s) (ps : List PortInput) :
    refreshed (p :: ps) s = s.adi :: refreshed ps (feedPort p s) :=
  congrArg (· ++ refreshed ps (feedPort p s)) (if_pos h)

theorem refreshed_cons_of_not_refreshes {p : PortInput} {s : State} (h : ¬ Refreshes p s) (ps : List PortInput) :
    refreshed (p :: ps) s = refreshed ps (feedPort p s) :=
  congrArg (· ++ refreshed ps (feedPort p s)) (if_neg h)

/-- A refresh takes ADI to the next position (R135). -/
theorem feedPort_adi_of_refreshes {p : PortInput} {s : State} (h : Refreshes p s) :
    (feedPort p s).adi.val = (s.adi.val + 1) % 4 := by
  obtain ⟨hop, hrf⟩ := h
  rw [feedPort_of_portOp_some hop, perform_polldm, if_pos hrf, refreshDigit_eq]
  exact Fin.val_add s.adi 1

/-- Nothing but a refresh or a reset moves ADI (R42). -/
theorem feedPort_adi_of_not_refreshes {p : PortInput} (hp : p.rst = false) {s : State} (h : ¬ Refreshes p s) :
    (feedPort p s).adi = s.adi := by
  rw [feedPort_of_no_reset hp]
  cases hop : portOp p with
  | none => rfl
  | some i =>
    cases i with
    | polldm =>
      have hrf : s.rfcnt ≠ 0#8 := fun hrf => h ⟨hop, hrf⟩
      rw [performOption_some, perform_polldm_waits (s := { s with btnIn := p.btn }) hrf]
    | nop | tick | hbtick | polldb | setdig _ _ => exact (agree_perform _ _ (e := .adi) rfl).symm

/-- Settles O27, by induction on the presentations: a refresh puts ADI at the head of the positions still to come, and
they start at the next one. -/
theorem refreshesVisitPositionsInOrder : Obligations.RefreshesVisitPositionsInOrder := by
  intro s ps hps
  induction ps generalizing s with
  | nil => exact ⟨fun k h => absurd h (Nat.not_lt_zero k), (Nat.mod_eq_of_lt s.adi.isLt).symm⟩
  | cons p ps ih =>
    obtain ⟨hp, hps'⟩ := List.forall_mem_cons.1 hps
    obtain ⟨horder, hend⟩ := ih (feedPort p s) hps'
    rw [feed_cons]
    by_cases h : Refreshes p s
    · simp only [refreshed_cons_of_refreshes h]
      rw [feedPort_adi_of_refreshes h] at horder hend
      refine ⟨fun k hk => ?_, by rw [hend, List.length_cons]; omega⟩
      cases k with
      | zero => exact (Nat.mod_eq_of_lt s.adi.isLt).symm
      | succ k => rw [List.getElem_cons_succ, horder k (Nat.lt_of_succ_lt_succ hk)]; omega
    · simp only [refreshed_cons_of_not_refreshes h]
      rw [feedPort_adi_of_not_refreshes hp h] at horder hend
      exact ⟨horder, hend⟩

/-! The rate of the refreshes (R138) -/

theorem refreshed_append (ps qs : List PortInput) (s : State) :
    refreshed (ps ++ qs) s = refreshed ps s ++ refreshed qs (feed ps s) := by
  induction ps generalizing s with
  | nil => rfl
  | cons p ps ih => rw [List.cons_append, refreshed, refreshed, ih, feed_cons, List.append_assoc]

/-- Feeding an operation of a script performs it under the level presented with it. -/
theorem feedPort_present (b : Byte) {i : Instr} (h : i.WellFormed) (s : State) :
    feedPort (present b i) s = perform i { s with btnIn := b } :=
  feedPort_of_portOp_some (portOp_present b h) s

/-- A round refreshes once when it finds RFCNT expired, and not at all otherwise: its POLLDB and TICK never do. -/
theorem refreshed_pollRound_length (b0 b1 b2 : Byte) (s : State) :
    (refreshed (pollRound b0 b1 b2) s).length = if s.rfcnt = 0#8 then 1 else 0 := by
  have hdm : portOp (present b0 .polldm) = some .polldm := portOp_present b0 rfl
  have hdb : portOp (present b1 .polldb) = some .polldb := portOp_present b1 rfl
  have htick : portOp (present b2 .tick) = some .tick := portOp_present b2 rfl
  simp [pollRound, refreshed, hdm, hdb, htick, apply_ite List.length]

/-- A round reloads an expired RFCNT, then takes one from it. -/
theorem feed_pollRound_rfcnt (b0 b1 b2 : Byte) (s : State) :
    (feed (pollRound b0 b1 b2) s).rfcnt = satDec (if s.rfcnt = 0#8 then s.cfg.refreshInterval else s.rfcnt) := by
  rw [pollRound, feed_cons, feed_cons, feed_cons, feed_nil, feedPort_present b2 rfl, feedPort_present b1 rfl,
    feedPort_present b0 rfl, perform_tick]
  refine congrArg satDec ((perform_polldb_rfcnt _).trans ?_)
  rw [perform_polldm, refreshDigit_eq]
  split <;> rfl

/-- Rounds from any value of RFCNT: the first refresh waits for it to expire, the others come an interval apart. -/
theorem refreshed_pollRounds_length (bs : List (Byte × Byte × Byte)) (s : State) :
    (refreshed (bs.flatMap fun b => pollRound b.1 b.2.1 b.2.2) s).length =
      (bs.length + s.cfg.refreshInterval.toNat - 1 - s.rfcnt.toNat) / s.cfg.refreshInterval.toNat := by
  have hR := s.cfg.refreshInterval_pos
  induction bs generalizing s with
  | nil => exact (Nat.div_eq_of_lt (by rw [List.length_nil]; omega)).symm
  | cons b bs ih =>
    have hcfg : (feed (pollRound b.1 b.2.1 b.2.2) s).cfg = s.cfg := feed_cfg _ _
    rw [List.flatMap_cons, refreshed_append, List.length_append, refreshed_pollRound_length,
      ih _ (by rwa [hcfg]), hcfg, feed_pollRound_rfcnt, satDec_toNat, List.length_cons]
    by_cases h : s.rfcnt = 0#8
    · rw [if_pos h, if_pos h, h, BitVec.toNat_zero, Nat.add_comm 1, ← Nat.add_div_right _ hR]
      congr 1
      omega
    · have hpos := BitVec.toNat_pos_of_ne_zero h
      rw [if_neg h, if_neg h, Nat.zero_add]
      congr 1
      omega

/-- Settles O28: from an expired counter the first round refreshes at once. -/
theorem refreshCadence : Obligations.RefreshCadence := by
  intro s bs h
  rw [refreshed_pollRounds_length, h]
  rfl

end Sys2Proof.Machine

/-! ## The output stage (44_output_stage.md R150) -/

namespace Sys2Proof.Machine

theorem outputStage_ind_getLsbD (p : Byte) (s : State) {i : Nat} (hi : i < 8) :
    (outputStage p s).ind.getLsbD i =
      if s.cfg.buttonMask.getLsbD i then p.getLsbD i else s.ind.getLsbD i := by
  rw [outputStage_ind, BitVec.getLsbD_or, BitVec.getLsbD_and, BitVec.getLsbD_and, BitVec.getLsbD_not]
  cases s.cfg.buttonMask.getLsbD i with
  | true => simp only [Bool.not_true, Bool.and_false, Bool.false_or, Bool.and_true, if_true]
  | false => simp [hi, -BitVec.getLsbD_eq_getElem]

/-- Settles O16: the mask splits IND bit by bit, and the stage is an update of IND alone. -/
theorem outputStageKeepsUnrelatedBits : Obligations.OutputStageKeepsUnrelatedBits :=
  fun s p => ⟨fun _ hi => outputStage_ind_getLsbD p s hi, rfl⟩

end Sys2Proof.Machine

/-! ## The main loop (45_main_loop_and_system.md R155 to R161) -/

namespace Sys2Proof.Machine

/-! NOP, and the absence of stops -/

/-- Settles O32: the arm of NOP answers the state it is given. -/
theorem nopChangesNothing : Obligations.NopChangesNothing := exec_nop

/-- Settles O37: an operation answers the state it performs; a step with nothing presented answers the same state, and
any other feeds one presentation. -/
theorem nothingEverStops : Obligations.NothingEverStops := by
  refine ⟨fun i s => ⟨perform i s, exec_eq_next i s⟩, fun s => ?_⟩
  cases hin : s.inputs with
  | nil => exact ⟨s, step_nil hin⟩
  | cons p rest => exact ⟨{ feedPort p s with inputs := rest }, step_eq_feedPort hin⟩

/-! One presentation whose masked sample is `v` -/

/-- In ARMED a POLLDB leaves its masked sample committed (R119, R120). -/
theorem feedPort_polldb_dbstate_armed {p : PortInput} {s : State} (hop : portOp p = some .polldb)
    (hs : s.dbcnt = 0#8) : (feedPort p s).dbstate = p.btn &&& s.cfg.buttonMask := by
  rw [feedPort_of_portOp_some hop]
  exact perform_polldb_dbstate_armed (s := { s with btnIn := p.btn }) hs

/-- The only pattern that can replace DBSTATE is the masked sample, so a committed sample stays (R120). -/
theorem feedPort_dbstate_stays {p : PortInput} {s : State} {v : Byte} (hp : p.rst = false)
    (hv : p.btn &&& s.cfg.buttonMask = v) (hs : s.dbstate = v) : (feedPort p s).dbstate = v := by
  by_contra hne
  have hchange : (feedPort p s).dbstate ≠ s.dbstate := by rwa [hs]
  obtain ⟨harmed, -⟩ := window_of_feedPort_dbstate_ne hp hchange
  obtain ⟨-, hkept⟩ | ⟨hop, -, -⟩ := feedPort_armed hp harmed
  · exact hchange hkept
  · exact hne ((feedPort_polldb_dbstate_armed hop harmed).trans hv)

/-- The engine is armed, or the pattern `v` is committed already. -/
def ReadyFor (v : Byte) (s : State) : Prop := s.dbcnt = 0#8 ∨ s.dbstate = v

theorem ReadyFor.feedPort_polldb {p : PortInput} {s : State} {v : Byte} (hop : portOp p = some .polldb)
    (hv : p.btn &&& s.cfg.buttonMask = v) (hs : ReadyFor v s) : (feedPort p s).dbstate = v := by
  obtain harmed | hdb := hs
  · exact (feedPort_polldb_dbstate_armed hop harmed).trans hv
  · exact feedPort_dbstate_stays (rst_of_portOp_some hop) hv hdb

/-- Only a POLLDB leaves ARMED, and it commits its sample (R121). -/
theorem ReadyFor.feedPort {p : PortInput} {s : State} {v : Byte} (hp : p.rst = false)
    (hv : p.btn &&& s.cfg.buttonMask = v) (hs : ReadyFor v s) : ReadyFor v (feedPort p s) := by
  obtain harmed | hdb := hs
  · obtain ⟨hzero, -⟩ | ⟨hop, -, -⟩ := feedPort_armed hp harmed
    · exact .inl hzero
    · exact .inr ((feedPort_polldb_dbstate_armed hop harmed).trans hv)
  · exact .inr (feedPort_dbstate_stays hp hv hdb)

/-! Endless presentations (R160) -/

theorem feedStream_cfg (σ : Nat → PortInput) (s : State) (n : Nat) : (feedStream σ s n).cfg = s.cfg := by
  induction n with
  | zero => rfl
  | succ n ih => rw [feedStream, feedPort_cfg, ih]

/-- Under endless TICKs a PulseCounter expires after any point: of its least values from there on, one that is not
zero would be undercut by the next TICK (R106). -/
theorem Guards.feedStream_expires {α : Type} {c : State → Byte} {kept : State → α} (h : Guards c kept)
    {σ : Nat → PortInput} (hσ : ∀ n, (σ n).rst = false) (htick : InfinitelyOften .tick σ) (s : State) (n : Nat) :
    ∃ m, n ≤ m ∧ c (feedStream σ s m) = 0#8 := by
  by_contra hnever
  push Not at hnever
  have hexact : ∀ k, n ≤ k → (c (feedStream σ s (k + 1))).toNat + (if portOp (σ k) = some .tick then 1 else 0) =
      (c (feedStream σ s k)).toNat := fun k hk => (h.feedPort_exact (hσ k) (hnever k hk)).1
  obtain ⟨m, hm, hleast⟩ :=
    exists_minimalFor_of_wellFoundedLT (n ≤ ·) (fun k => (c (feedStream σ s k)).toNat) ⟨n, le_rfl⟩
  have hfalls : ∀ k, m ≤ k → (c (feedStream σ s k)).toNat ≤ (c (feedStream σ s m)).toNat := by
    intro k hk
    induction k, hk using Nat.le_induction with
    | base => exact le_rfl
    | succ k hk ih => exact (Nat.le.intro (hexact k (hm.trans hk))).trans ih
  obtain ⟨k, hk, hop⟩ := htick m
  have hone := hexact k (hm.trans hk)
  rw [if_pos hop] at hone
  have hk' : m ≤ k + 1 := Nat.le_succ_of_le hk
  have hleast' : (c (feedStream σ s m)).toNat ≤ (c (feedStream σ s (k + 1))).toNat :=
    hleast (hm.trans hk') (hfalls (k + 1) hk')
  have hle := hfalls k hk
  omega

/-- What each presentation of the sample `v` keeps is kept for as long as the sample is `v`. -/
theorem feedStream_keeps {σ : Nat → PortInput} {s : State} {v : Byte} {n : Nat} {P : State → Prop}
    (hσ : ∀ k, (σ k).rst = false) (hv : ∀ k, n ≤ k → (σ k).btn &&& s.cfg.buttonMask = v)
    (hkeeps : ∀ {p : PortInput} {t : State}, p.rst = false → p.btn &&& t.cfg.buttonMask = v → P t → P (feedPort p t))
    (hn : P (feedStream σ s n)) {k : Nat} (hk : n ≤ k) : P (feedStream σ s k) := by
  induction k, hk using Nat.le_induction with
  | base => exact hn
  | succ k hk ih => exact hkeeps (hσ k) (by rw [feedStream_cfg, hv k hk]) ih

/-- Settles O21: the TICKs run DBCNT out once the input is stable, the engine stays ready for the input until the next
POLLDB, that poll leaves it committed, and from then on no other pattern can be committed. -/
theorem aStableInputIsCommittedInTheEnd : Obligations.AStableInputIsCommittedInTheEnd := by
  rintro s σ v n₀ hσ ⟨-, hpolls⟩ htick hv
  obtain ⟨m, hm, harmed⟩ := dbcnt_guards_commitView.feedStream_expires hσ htick s n₀
  obtain ⟨k, hk, hop⟩ := hpolls m
  have hready : ReadyFor v (feedStream σ s k) :=
    feedStream_keeps hσ (fun j hj => hv j (hm.trans hj)) ReadyFor.feedPort (.inl harmed) hk
  have hcommitted : (feedStream σ s (k + 1)).dbstate = v :=
    hready.feedPort_polldb hop (by rw [feedStream_cfg, hv k (hm.trans hk)])
  exact ⟨k + 1, fun n hn => feedStream_keeps (P := fun t => t.dbstate = v) hσ (fun j hj => hv j (by omega))
    feedPort_dbstate_stays hcommitted hn⟩

end Sys2Proof.Machine

/-! ## The execution contexts (60_exceptions.md R175) -/

namespace Sys2Proof.Machine

/-! The operations of each context -/

theorem opContext_interrupt_iff (i : Instr) : opContext i = .interrupt ↔ i = .tick ∨ i = .hbtick := by
  cases i <;> simp [opContext]

theorem opContext_main_iff (i : Instr) : opContext i = .main ↔ i ≠ .tick ∧ i ≠ .hbtick := by
  cases i <;> simp [opContext]

/-! Interrupt context: one decrement of each counter at most, and HB (R60, R111) -/

/-- SatDec stays at 0, or takes exactly one (R101). -/
theorem satDec_eq_or_toNat_add_one (c : Byte) : satDec c = c ∨ (satDec c).toNat + 1 = c.toNat := by
  by_cases h : c = 0#8
  · exact .inl (by rw [h, satDec_zero])
  · exact .inr (satDec_toNat_add_one h)

theorem perform_interrupt {i : Instr} (h : opContext i = .interrupt) (s : State) :
    perform i s = { s with dbcnt := (perform i s).dbcnt, rfcnt := (perform i s).rfcnt, hb := (perform i s).hb } ∧
      ((perform i s).dbcnt = s.dbcnt ∨ (perform i s).dbcnt.toNat + 1 = s.dbcnt.toNat) ∧
      ((perform i s).rfcnt = s.rfcnt ∨ (perform i s).rfcnt.toNat + 1 = s.rfcnt.toNat) := by
  obtain rfl | rfl := (opContext_interrupt_iff i).1 h
  · exact ⟨rfl, satDec_eq_or_toNat_add_one s.dbcnt, satDec_eq_or_toNat_add_one s.rfcnt⟩
  · exact ⟨rfl, .inl rfl, .inl rfl⟩

/-! Main context: each counter is reloaded by its own poll alone, which finds it expired (R105) -/

/-- But for TICK, only the commit of POLLDB moves DBCNT (R119). -/
theorem perform_dbcnt_kept_or_reloaded {i : Instr} (h : i ≠ .tick) (s : State) :
    (perform i s).dbcnt = s.dbcnt ∨ (s.dbcnt = 0#8 ∧ (perform i s).dbcnt = s.cfg.debounceWindow) := by
  obtain hp | ⟨hi, -⟩ | ⟨-, hp⟩ | ⟨-, -, hp⟩ | ⟨-, hzero, -, hp⟩ | ⟨p, n, -, hp⟩ := perform_cases i s
  · exact .inl (by rw [hp])
  · exact absurd hi h
  · exact .inl (by rw [hp])
  · exact .inl (by rw [hp, refreshDigit_dbcnt])
  · exact .inr ⟨hzero, by rw [hp, commitSnapshot_eq]⟩
  · exact .inl (by rw [hp, digitWrite_dbcnt])

/-- But for TICK, only the refresh of POLLDM moves RFCNT (R136). -/
theorem perform_rfcnt_kept_or_reloaded {i : Instr} (h : i ≠ .tick) (s : State) :
    (perform i s).rfcnt = s.rfcnt ∨ (s.rfcnt = 0#8 ∧ (perform i s).rfcnt = s.cfg.refreshInterval) := by
  obtain hp | ⟨hi, -⟩ | ⟨-, hp⟩ | ⟨-, hzero, hp⟩ | ⟨-, -, -, hp⟩ | ⟨p, n, -, hp⟩ := perform_cases i s
  · exact .inl (by rw [hp])
  · exact absurd hi h
  · exact .inl (by rw [hp])
  · exact .inr ⟨hzero, by rw [hp, refreshDigit_eq]⟩
  · exact .inl (by rw [hp, commitSnapshot_eq])
  · exact .inl (by rw [hp, digitWrite_rfcnt])

/-- Settles O50: the interrupt operations are TICK and HBTICK; without them HB stays and a counter is only reloaded. -/
theorem eachContextMutatesItsSubset : Obligations.EachContextMutatesItsSubset := by
  intro i s t h
  rw [exec_eq_next] at h
  cases h
  refine ⟨fun hint => perform_interrupt hint s, fun hmain => ?_⟩
  obtain ⟨htick, hhb⟩ := (opContext_main_iff i).1 hmain
  exact ⟨perform_hb hhb s, perform_dbcnt_kept_or_reloaded htick s, perform_rfcnt_kept_or_reloaded htick s⟩

end Sys2Proof.Machine

/-! ## Reset (70_reset_and_hazards.md R185, R187) -/

namespace Sys2Proof.Machine

/-- Settles O2: a presentation with RST performs the reset alone, which keeps the build and the pins just latched. -/
theorem resetOverridesTheEventWord : Obligations.ResetOverridesTheEventWord := by
  intro s p rest hin hrst
  rw [step_cons hin, performPort_eq, if_pos hrst]
  rfl

/-- The first refresh after reset sends position 0 blank (R187). -/
theorem frames_refreshDigit_resetOf (c : Config) :
    frames (refreshDigit (State.resetOf c)).dtrace = [payloadBits c.blank (c.selectTable.get 0)] := by
  rw [refreshDigit_eq, digitRead_resetOf]
  exact frames_append_frameRecords (d := []) rfl rfl c.blank (c.selectTable.get 0)

/-- Settles O3: after reset both counters are 0, so TICK finds nothing to take, the refresh is due, and a sample that
differs from the pattern 0 is committed. -/
theorem firstOperationsAfterReset : Obligations.FirstOperationsAfterReset := by
  intro c
  refine ⟨rfl, ⟨refreshDigit (State.resetOf c), exec_polldm_refreshes rfl, frames_refreshDigit_resetOf c, ?_⟩,
    fun v hv => ?_⟩
  · rw [refreshDigit_eq]
    exact ⟨rfl, rfl⟩
  · refine ⟨_, exec_polldb_commits (s := { State.resetOf c with btnIn := v }) rfl hv, rfl, ?_⟩
    have hmask : v &&& c.buttonMask &&& c.buttonMask = v &&& c.buttonMask := by rw [BitVec.and_assoc, BitVec.and_self]
    exact (commitSnapshot_ind_monitored _ _).trans hmask

end Sys2Proof.Machine

/-! ## Preemption inside a poll (70_reset_and_hazards.md R196)

A handler commutes with every write of a poll but the reload of the poll's counter. So the handlers taken before the
reload move to the front of the poll and those taken after it to the end. In front of the poll they leave its guard and
its writes as they are, since TICK leaves an expired counter at 0. -/

namespace Sys2Proof.Machine

/-! The atomic poll as its writes, one after the other -/

/-- The writes of a poll performed with nothing between them. -/
def runMicros (ms : List Micro) (s : State) : State := ms.foldl (fun t m => m.run t) s

theorem runMicros_append (ms ns : List Micro) (s : State) : runMicros (ms ++ ns) s = runMicros ns (runMicros ms s) :=
  List.foldl_append

/-- The records of a frame, written one by one, are the frame (R80, R134). -/
theorem runMicros_frameRecords (seg sel : Byte) (s : State) :
    runMicros ((frameRecords seg sel).map fun r => Micro.pin r.line r.level) s = sendFrame seg sel s := rfl

theorem perform_polldm_eq_runMicros (s : State) : perform .polldm s = runMicros (polldmMicros s) s := by
  simp only [perform_polldm, polldmMicros, expired_iff]
  split
  · rw [runMicros_append, runMicros_frameRecords]
    rfl
  · rfl

theorem perform_polldb_eq_runMicros (s : State) : perform .polldb s = runMicros (polldbMicros s) s := by
  simp only [perform_polldb, polldbMicros, Bool.and_eq_true, expired_iff, differs_iff]
  split <;> rfl

/-! The writes that commute with the handlers -/

/-- The write gives the same state before a handler and after it. -/
def Micro.Commutes (m : Micro) : Prop :=
  ∀ (h : Handler) (s : State), m.run (perform h.instr s) = perform h.instr (m.run s)

theorem commutes_pin (l : Line) (b : Bool) : (Micro.pin l b).Commutes := fun h _ => by cases h <;> cases l <;> rfl

theorem commutes_advance : Micro.advance.Commutes := fun h _ => by cases h <;> rfl

theorem commutes_commit (v : Byte) : (Micro.commit v).Commutes := fun h _ => by cases h <;> rfl

theorem commutes_output (v : Byte) : (Micro.output v).Commutes := fun h _ => by cases h <;> rfl

theorem runMicros_perform {ms : List Micro} (hms : ∀ m ∈ ms, m.Commutes) (h : Handler) (s : State) :
    runMicros ms (perform h.instr s) = perform h.instr (runMicros ms s) := by
  induction ms generalizing s with
  | nil => rfl
  | cons m ms ih =>
    obtain ⟨hm, hms⟩ := List.forall_mem_cons.1 hms
    calc runMicros ms (m.run (perform h.instr s))
        = runMicros ms (perform h.instr (m.run s)) := by rw [hm]
      _ = perform h.instr (runMicros ms (m.run s)) := ih hms _

theorem runMicros_runHandlers {ms : List Micro} (hms : ∀ m ∈ ms, m.Commutes) (hs : List Handler) (s : State) :
    runMicros ms (runHandlers hs s) = runHandlers hs (runMicros ms s) := by
  induction hs generalizing s with
  | nil => rfl
  | cons h hs ih =>
    calc runMicros ms (runHandlers hs (perform h.instr s))
        = runHandlers hs (runMicros ms (perform h.instr s)) := ih _
      _ = runHandlers hs (perform h.instr (runMicros ms s)) := by rw [runMicros_perform hms]

/-! Preempted runs -/

/-- Among writes that commute with them, the handlers may all wait for the last write. -/
theorem runSlots_of_commutes {xs : List Slot} (hxs : ∀ m ∈ microsOf xs, m.Commutes) (s : State) :
    runSlots xs s = runHandlers (handlersOf xs) (runMicros (microsOf xs) s) := by
  induction xs generalizing s with
  | nil => rfl
  | cons x xs ih =>
    cases x with
    | micro m => exact ih (List.forall_mem_cons.1 hxs).2 (m.run s)
    | handler h =>
      calc runSlots xs (perform h.instr s)
          = runHandlers (handlersOf xs) (runMicros (microsOf xs) (perform h.instr s)) := ih hxs _
        _ = runHandlers (handlersOf xs) (perform h.instr (runMicros (microsOf xs) s)) := by
          rw [runMicros_perform (ms := microsOf xs) hxs]

/-- The place of one write cuts a preempted run into what comes before it and what comes after it. -/
theorem exists_slots_around {xs : List Slot} {pre post : List Micro} {r : Micro}
    (hxs : microsOf xs = pre ++ r :: post) :
    ∃ ys zs, xs = ys ++ .micro r :: zs ∧ microsOf ys = pre ∧ microsOf zs = post := by
  obtain ⟨ys, ws, rfl, hys, hws⟩ := List.filterMap_eq_append_iff.1 hxs
  obtain ⟨hd, x, zs, rfl, hhd, hx, hzs⟩ := List.filterMap_eq_cons_iff.1 hws
  cases x with
  | handler h => cases hx
  | micro m =>
    cases hx
    have hnone : microsOf hd = [] := List.filterMap_eq_nil_iff.2 hhd
    refine ⟨ys ++ hd, zs, (List.append_assoc ..).symm, ?_, hzs⟩
    calc microsOf (ys ++ hd)
        = microsOf ys ++ microsOf hd := List.filterMap_append
      _ = pre := by rw [hnone, List.append_nil]; exact hys

/-- When all writes but `r` commute with the handlers, those taken before `r` may run before all writes and those
taken after it after all writes. -/
theorem runSlots_around {xs : List Slot} {pre post : List Micro} {r : Micro} (hxs : microsOf xs = pre ++ r :: post)
    (hpre : ∀ m ∈ pre, m.Commutes) (hpost : ∀ m ∈ post, m.Commutes) (s : State) :
    ∃ before after, handlersOf xs = before ++ after ∧
      runSlots xs s = runHandlers after (runMicros (pre ++ r :: post) (runHandlers before s)) := by
  obtain ⟨ys, zs, rfl, rfl, rfl⟩ := exists_slots_around hxs
  refine ⟨handlersOf ys, handlersOf zs, List.filterMap_append, ?_⟩
  calc runSlots (ys ++ .micro r :: zs) s
      = runSlots zs (r.run (runSlots ys s)) := List.foldl_append
    _ = runHandlers (handlersOf zs) (runMicros (microsOf zs) (r.run (runSlots ys s))) := runSlots_of_commutes hpost _
    _ = runHandlers (handlersOf zs) (runMicros (r :: microsOf zs)
          (runMicros (microsOf ys) (runHandlers (handlersOf ys) s))) := by
      rw [runSlots_of_commutes hpre, runMicros_runHandlers hpre]
      rfl
    _ = _ := by rw [runMicros_append]

/-! An operation that is a list of writes, preempted -/

/-- The preempted run ends as the atomic operation with some of the handlers before it and the rest after it. -/
def EndsAsAtomic (i : Instr) (s : State) (xs : List Slot) : Prop :=
  ∃ before after, handlersOf xs = before ++ after ∧
    runSlots xs s = runHandlers after (perform i (runHandlers before s))

section
variable {i : Instr} {micros : State → List Micro} (hi : ∀ s, perform i s = runMicros (micros s) s)
  {s : State} {xs : List Slot} (hxs : microsOf xs = micros s)
include hi hxs

/-- An operation that returns at its guard leaves only handlers, which act as handlers after it (R196 c). -/
theorem endsAsAtomic_of_no_writes (hnone : micros s = []) : EndsAsAtomic i s xs := by
  have hc : ∀ m ∈ microsOf xs, m.Commutes := by simp [hxs, hnone]
  refine ⟨[], handlersOf xs, rfl, ?_⟩
  calc runSlots xs s
      = runHandlers (handlersOf xs) (runMicros (microsOf xs) s) := runSlots_of_commutes hc s
    _ = runHandlers (handlersOf xs) (perform i s) := by rw [hxs, hi]

/-- An operation with one write that does not commute with the handlers, when these keep its writes as they are. -/
theorem endsAsAtomic_of_one_reload {pre post : List Micro} {r : Micro} (hw : micros s = pre ++ r :: post)
    (hpre : ∀ m ∈ pre, m.Commutes) (hpost : ∀ m ∈ post, m.Commutes)
    (hkept : ∀ hs, micros (runHandlers hs s) = micros s) : EndsAsAtomic i s xs := by
  obtain ⟨before, after, hsplit, hrun⟩ := runSlots_around (hxs.trans hw) hpre hpost s
  refine ⟨before, after, hsplit, ?_⟩
  rw [hrun, hi, hkept, hw]

end

/-! What a poll goes on to write, past its guard and before it -/

theorem polldmMicros_of_expired {s : State} (hs : s.rfcnt = 0#8) :
    polldmMicros s = ((frameRecords (digitRead s s.adi) (selectRead s s.adi)).map (fun r => Micro.pin r.line r.level) ++
      [.advance]) ++ [.reloadRefresh] := by
  rw [polldmMicros, if_pos ((expired_iff _).2 hs), List.append_assoc]
  rfl

theorem polldmMicros_of_waiting {s : State} (hs : s.rfcnt ≠ 0#8) : polldmMicros s = [] :=
  if_neg (mt (expired_iff _).1 hs)

theorem polldbMicros_of_commits {s : State} (hs : s.dbcnt = 0#8) (hd : snapshot s ≠ s.dbstate) :
    polldbMicros s = [.commit (snapshot s)] ++ .reloadDebounce :: [.output (snapshot s)] := by
  rw [polldbMicros, (expired_iff _).2 hs, (differs_iff _ _).2 hd]
  rfl

theorem polldbMicros_of_waiting {s : State} (h : ¬ (s.dbcnt = 0#8 ∧ snapshot s ≠ s.dbstate)) : polldbMicros s = [] := by
  rw [← expired_iff, ← differs_iff, ← Bool.and_eq_true] at h
  exact if_neg h

/-! Handlers before a poll whose counter has expired -/

/-- What one handler keeps while a counter stands at 0, leaving it at 0, any handlers keep. -/
theorem runHandlers_keeps {α : Type} {c : State → Byte} {f : State → α}
    (hkeep : ∀ (h : Handler) (s : State), c s = 0#8 → c (perform h.instr s) = 0#8 ∧ f (perform h.instr s) = f s)
    (hs : List Handler) {s : State} (hc : c s = 0#8) : f (runHandlers hs s) = f s := by
  induction hs generalizing s with
  | nil => rfl
  | cons h hs ih =>
    obtain ⟨hc', hf⟩ := hkeep h s hc
    exact (ih hc').trans hf

/-- An expired counter stays at 0, and nothing else that a poll reads is a handler's to write (R196 a, d). -/
theorem perform_handler_polldmMicros (h : Handler) {s : State} (hs : s.rfcnt = 0#8) :
    (perform h.instr s).rfcnt = 0#8 ∧ polldmMicros (perform h.instr s) = polldmMicros s := by
  cases h with
  | tick =>
    have hrf : (perform .tick s).rfcnt = 0#8 := by rw [perform_tick, hs, satDec_zero]
    refine ⟨hrf, ?_⟩
    rw [Handler.instr, polldmMicros_of_expired hs, polldmMicros_of_expired hrf]
    rfl
  | hbtick => exact ⟨hs, rfl⟩

theorem perform_handler_polldbMicros (h : Handler) {s : State} (hs : s.dbcnt = 0#8) :
    (perform h.instr s).dbcnt = 0#8 ∧ polldbMicros (perform h.instr s) = polldbMicros s := by
  cases h with
  | tick =>
    have hdb : (perform .tick s).dbcnt = 0#8 := by rw [perform_tick, hs, satDec_zero]
    refine ⟨hdb, ?_⟩
    rw [Handler.instr, polldbMicros, polldbMicros, hdb, hs]
    rfl
  | hbtick => exact ⟨hs, rfl⟩

/-- Settles O53: past its guard the poll's one write that does not commute is the reload of RFCNT, its last. -/
theorem aPreemptedPolldmIsAtomic : Obligations.APreemptedPolldmIsAtomic := by
  intro s xs hxs
  by_cases hs : s.rfcnt = 0#8
  · refine endsAsAtomic_of_one_reload perform_polldm_eq_runMicros hxs (polldmMicros_of_expired hs) ?_ nofun fun hds =>
      runHandlers_keeps (fun h _ => perform_handler_polldmMicros h) hds hs
    refine List.forall_mem_append.2 ⟨List.forall_mem_map.2 fun p _ => commutes_pin p.line p.level, ?_⟩
    exact List.forall_mem_singleton.2 commutes_advance
  · exact endsAsAtomic_of_no_writes perform_polldm_eq_runMicros hxs (polldmMicros_of_waiting hs)

/-- Settles O54: past its guard and its comparison the poll's one write that does not commute is the reload of DBCNT,
between the commit and the indicators. -/
theorem aPreemptedPolldbIsAtomic : Obligations.APreemptedPolldbIsAtomic := by
  intro s xs hxs
  by_cases h : s.dbcnt = 0#8 ∧ snapshot s ≠ s.dbstate
  · obtain ⟨hs, hd⟩ := h
    exact endsAsAtomic_of_one_reload perform_polldb_eq_runMicros hxs (polldbMicros_of_commits hs hd)
      (List.forall_mem_singleton.2 (commutes_commit _)) (List.forall_mem_singleton.2 (commutes_output _)) fun hds =>
      runHandlers_keeps (fun h _ => perform_handler_polldbMicros h) hds hs
  · exact endsAsAtomic_of_no_writes perform_polldb_eq_runMicros hxs (polldbMicros_of_waiting h)

end Sys2Proof.Machine
